-- ==== Sys2Proof/Word.lean ====
section
/-! DEFINITION. The word types of CXF (spec/00_scope.md R11, R12; spec/30_encoding.md R70, R72): bytes and the 32-bit
command and response words. Nothing here does arithmetic beyond what BitVec gives. -/

namespace Sys2Proof

/-- A byte: an unsigned 8-bit value, bit 7 the most significant (R11). -/
abbrev Byte := BitVec 8

/-- A command word or a response word (R70, R72). -/
abbrev Word := BitVec 32

/-- A field identifier of a field table (R9): 16 bits. -/
abbrev FieldId := BitVec 16

/-- A zone-group identifier of the fingerprint catalog (R10): 16 bits. -/
abbrev GroupId := BitVec 16

end Sys2Proof
end

