-- ==== Sys2Proof/Syntax.lean ====
section
/-! DEFINITION. The instructions of CXF, one constructor per row of spec/opcode_table.json: 25 host commands
(spec/30_encoding.md R74), 6 wire symbols of the reader (R77) and 3 events (spec/42_frame_reader.md R140, R141, R132);
and the forms in which they reach the block. -/

namespace Sys2Proof

/-- The mode of a read (spec/10_state.md R23; the operand of RDSTART, R131). -/
inductive RdMode where
  | nonblock
  | block
  deriving DecidableEq, Repr, Inhabited

/-- The units of the block (R2); `system` is the group of the commands that belong to no unit. -/
inductive CxfUnit where
  | system | esc | ck | rx | tx | bf
  deriving DecidableEq, Repr, Inhabited

/-- The instructions: what one step of one agent can do (R20, R74, R77). -/
inductive Instr where
  -- system commands (45_system.md)
  | nop | reset | flush | status | clrovr
  -- escape codec (40_codec.md)
  | esc (byte : Byte)
  | unesc (b0 b1 : Byte)
  -- checksum unit (41_checksum.md)
  | ckclr
  | ckadd (byte : Byte)
  | ckrd
  | ckvfy (lo hi : Byte)
  -- frame reader commands (42_frame_reader.md)
  | rdstart (mode : RdMode)
  | rdres
  | msgrd (index : Byte)
  | msglen
  -- frame writer (43_frame_writer.md)
  | txbclr
  | txbpush (byte : Byte)
  | txsend
  -- bitfield decoder (44_bitfield.md)
  | bmload (start count : Byte)
  | bmrd (j : Byte)
  | fldapply (table j : Byte)
  | ford (i : BitVec 3)
  | typesplit
  | fplookup (a b c : Byte)
  | pindec (start ndigits : Byte)
  -- wire symbols the reader decodes (30_encoding.md R77)
  | wireDelim
  | wireUnexpected (x : Byte)
  | wireEsc7E
  | wireEsc7D
  | wireBadesc (x : Byte)
  | wireLiteral (x : Byte)
  -- events (42_frame_reader.md R140, R141, R132)
  | lineRx (b : Byte)
  | timeout
  | rxeStep
  deriving DecidableEq, Repr, Inhabited

/-- What one agent's turn brings to the block (R20): a command word from the host, a byte or the timeout from the line,
or the receive engine's own turn. -/
inductive Turn where
  | host (w : Word)
  | lineByte (b : Byte)
  | lineTimeout
  | rxe
  deriving DecidableEq, Repr, Inhabited

/-- The two reader situations that R77 tells apart: waiting for the delimiter, or inside a frame. -/
inductive WireCtx where
  | waitDelim
  | inFrame
  deriving DecidableEq, Repr, Inhabited

/-- An instruction as it stands outside the block: an agent's turn, or the bytes of one wire symbol in the reader
situation that gives them their meaning. -/
inductive Code where
  | turn (t : Turn)
  | wire (ctx : WireCtx) (bytes : List Byte)
  deriving DecidableEq, Repr, Inhabited

end Sys2Proof
end

