-- ==== Sys2Proof/WellFormed.lean ====
section
/-! DEFINITION. Which instruction terms stand for something that can be written down: R77 limits the byte of three wire
symbols; every other operand may take every value of its field (R74, R85). -/

namespace Sys2Proof

/-- The side conditions of R77 on the bytes of a wire symbol; every other instruction is well formed. -/
def Instr.wf : Instr → Bool
  | .wireUnexpected x => decide (x ≠ 0x7E#8)
  | .wireBadesc x => decide (x ≠ 0x5E#8) && decide (x ≠ 0x5D#8)
  | .wireLiteral x => decide (x ≠ 0x7D#8)
  | .nop | .reset | .flush | .status | .clrovr | .esc _ | .unesc _ _ | .ckclr | .ckadd _ | .ckrd | .ckvfy _ _
  | .rdstart _ | .rdres | .msgrd _ | .msglen | .txbclr | .txbpush _ | .txsend | .bmload _ _ | .bmrd _ | .fldapply _ _
  | .ford _ | .typesplit | .fplookup _ _ _ | .pindec _ _ | .wireDelim | .wireEsc7E | .wireEsc7D | .lineRx _ | .timeout
  | .rxeStep => true

end Sys2Proof
end

