-- ==== Sys2Proof/Decode.lean ====
section
/-! DEFINITION. Decoding and encoding (spec/30_encoding.md R70, R71, R74, R77, R81, R85): the command word, the wire
symbol and an agent's turn. Decoding is total and rejects by name; the encoder is written from the same tables. -/

namespace Sys2Proof

/-! ## Command words -/

/-- Why a command word spells no command. -/
inductive CommandError where
  /-- OP is not in R74 (R81); the block answers ILLEGAL_COMMAND (R225) -/
  | unassignedOpcode
  /-- OP is assigned and a reserved bit is set (R71); the block answers ILLEGAL_OPERAND (R226) -/
  | reservedOperandBits
  deriving DecidableEq, Repr

/-- R70: the word with fields OP, A, B and C. -/
def packWord (op a b c : Byte) : Word := op ++ a ++ b ++ c

/-- R70: bits 31:24. -/
def fieldOP (w : Word) : Byte := w.extractLsb' 24 8
/-- R70: bits 23:16. -/
def fieldA (w : Word) : Byte := w.extractLsb' 16 8
/-- R70: bits 15:8. -/
def fieldB (w : Word) : Byte := w.extractLsb' 8 8
/-- R70: bits 7:0. -/
def fieldC (w : Word) : Byte := w.extractLsb' 0 8

/-- R131: A[0] of RDSTART, 0 NONBLOCK and 1 BLOCK (R23). -/
def modeOfBit (a : Byte) : RdMode := if a.getLsbD 0 then .block else .nonblock

/-- R23: the operand byte A of RDSTART for a mode, as R82 writes `nb` and `blk`. -/
def modeByte : RdMode → Byte
  | .nonblock => 0x00#8
  | .block => 0x01#8

/-- One row of the opcode map R74: the reserved bits of the word's fields A, B and C (R71), and the command that the
fields spell. -/
structure OpRow where
  reserved : Word
  build    : Byte → Byte → Byte → Instr

/-- The opcode map R74. -/
def opcodeRow : Nat → Option OpRow
  | 0x00 => some ⟨0x00FFFFFF#32, fun _ _ _ => .nop⟩
  | 0x01 => some ⟨0x00FFFFFF#32, fun _ _ _ => .reset⟩
  | 0x02 => some ⟨0x00FFFFFF#32, fun _ _ _ => .flush⟩
  | 0x03 => some ⟨0x00FFFFFF#32, fun _ _ _ => .status⟩
  | 0x04 => some ⟨0x00FFFFFF#32, fun _ _ _ => .clrovr⟩
  | 0x10 => some ⟨0x0000FFFF#32, fun a _ _ => .esc a⟩
  | 0x11 => some ⟨0x000000FF#32, fun a b _ => .unesc a b⟩
  | 0x20 => some ⟨0x00FFFFFF#32, fun _ _ _ => .ckclr⟩
  | 0x21 => some ⟨0x0000FFFF#32, fun a _ _ => .ckadd a⟩
  | 0x22 => some ⟨0x00FFFFFF#32, fun _ _ _ => .ckrd⟩
  | 0x23 => some ⟨0x000000FF#32, fun a b _ => .ckvfy a b⟩
  | 0x30 => some ⟨0x00FEFFFF#32, fun a _ _ => .rdstart (modeOfBit a)⟩
  | 0x31 => some ⟨0x00FFFFFF#32, fun _ _ _ => .rdres⟩
  | 0x32 => some ⟨0x0000FFFF#32, fun a _ _ => .msgrd a⟩
  | 0x33 => some ⟨0x00FFFFFF#32, fun _ _ _ => .msglen⟩
  | 0x40 => some ⟨0x00FFFFFF#32, fun _ _ _ => .txbclr⟩
  | 0x41 => some ⟨0x0000FFFF#32, fun a _ _ => .txbpush a⟩
  | 0x42 => some ⟨0x00FFFFFF#32, fun _ _ _ => .txsend⟩
  | 0x50 => some ⟨0x000000FF#32, fun a b _ => .bmload a b⟩
  | 0x51 => some ⟨0x0000FFFF#32, fun a _ _ => .bmrd a⟩
  | 0x52 => some ⟨0x000000FF#32, fun a b _ => .fldapply a b⟩
  | 0x53 => some ⟨0x00F8FFFF#32, fun a _ _ => .ford (a.extractLsb' 0 3)⟩
  | 0x54 => some ⟨0x00FFFFFF#32, fun _ _ _ => .typesplit⟩
  | 0x55 => some ⟨0x00000000#32, fun a b c => .fplookup a b c⟩
  | 0x56 => some ⟨0x000000FF#32, fun a b _ => .pindec a b⟩
  | _ => none

/-- R74: "A decoder selects on OP alone"; the reserved-bit test of R71 follows (R238). -/
def decodeCommand (w : Word) : Except CommandError Instr :=
  match opcodeRow (fieldOP w).toNat with
  | none => .error .unassignedOpcode
  | some r =>
    if w &&& r.reserved = 0#32 then .ok (r.build (fieldA w) (fieldB w) (fieldC w)) else .error .reservedOperandBits

/-- What an agent's turn asks the block to do (R20): the host's word is decoded, the line's and the engine's turns are
the three events. -/
def decodeTurn : Turn → Except CommandError Instr
  | .host w => decodeCommand w
  | .lineByte b => .ok (.lineRx b)
  | .lineTimeout => .ok .timeout
  | .rxe => .ok .rxeStep

/-! ## Wire symbols -/

/-- Why bytes of the line are not one whole wire symbol of R77. -/
inductive WireError where
  /-- no byte to decode -/
  | noByte
  /-- 0x7D inside a frame with no byte after it: the symbol's second byte is missing (R77) -/
  | incompleteEscape
  /-- bytes are left after the symbol -/
  | trailingBytes
  deriving DecidableEq, Repr

/-- The wire-symbol table R77: the first symbol of the bytes and the bytes after it. -/
def decodeWire : WireCtx → List Byte → Except WireError (Instr × List Byte)
  | _, [] => .error .noByte
  | .waitDelim, b :: rest => .ok (if b = 0x7E#8 then .wireDelim else .wireUnexpected b, rest)
  | .inFrame, b :: rest =>
    if b = 0x7D#8 then
      match rest with
      | [] => .error .incompleteEscape
      | x :: rest =>
        .ok (if x = 0x5E#8 then .wireEsc7E else if x = 0x5D#8 then .wireEsc7D else .wireBadesc x, rest)
    else .ok (.wireLiteral b, rest)

/-- The bytes, all of them, as one wire symbol (R77). -/
def decodeSymbol (ctx : WireCtx) (bytes : List Byte) : Except WireError Instr :=
  match decodeWire ctx bytes with
  | .ok (i, []) => .ok i
  | .ok (_, _ :: _) => .error .trailingBytes
  | .error e => .error e

/-- Why a code is no instruction. -/
inductive DecodeError where
  | command (e : CommandError)
  | wire (e : WireError)
  deriving DecidableEq, Repr

/-- The decoder: total, rejecting by name. -/
def decode : Code → Except DecodeError Instr
  | .turn t =>
    match decodeTurn t with
    | .ok i => .ok i
    | .error e => .error (.command e)
  | .wire ctx bytes =>
    match decodeSymbol ctx bytes with
    | .ok i => .ok i
    | .error e => .error (.wire e)

/-! ## The encoder -/

/-- The code of an instruction, from R74 and R77: reserved fields are written as zero (R71). -/
def encode : Instr → Code
  | .nop => .turn (.host (packWord 0x00#8 0#8 0#8 0#8))
  | .reset => .turn (.host (packWord 0x01#8 0#8 0#8 0#8))
  | .flush => .turn (.host (packWord 0x02#8 0#8 0#8 0#8))
  | .status => .turn (.host (packWord 0x03#8 0#8 0#8 0#8))
  | .clrovr => .turn (.host (packWord 0x04#8 0#8 0#8 0#8))
  | .esc a => .turn (.host (packWord 0x10#8 a 0#8 0#8))
  | .unesc b0 b1 => .turn (.host (packWord 0x11#8 b0 b1 0#8))
  | .ckclr => .turn (.host (packWord 0x20#8 0#8 0#8 0#8))
  | .ckadd b => .turn (.host (packWord 0x21#8 b 0#8 0#8))
  | .ckrd => .turn (.host (packWord 0x22#8 0#8 0#8 0#8))
  | .ckvfy lo hi => .turn (.host (packWord 0x23#8 lo hi 0#8))
  | .rdstart m => .turn (.host (packWord 0x30#8 (modeByte m) 0#8 0#8))
  | .rdres => .turn (.host (packWord 0x31#8 0#8 0#8 0#8))
  | .msgrd i => .turn (.host (packWord 0x32#8 i 0#8 0#8))
  | .msglen => .turn (.host (packWord 0x33#8 0#8 0#8 0#8))
  | .txbclr => .turn (.host (packWord 0x40#8 0#8 0#8 0#8))
  | .txbpush b => .turn (.host (packWord 0x41#8 b 0#8 0#8))
  | .txsend => .turn (.host (packWord 0x42#8 0#8 0#8 0#8))
  | .bmload start count => .turn (.host (packWord 0x50#8 start count 0#8))
  | .bmrd j => .turn (.host (packWord 0x51#8 j 0#8 0#8))
  | .fldapply t j => .turn (.host (packWord 0x52#8 t j 0#8))
  | .ford i => .turn (.host (packWord 0x53#8 (i.setWidth 8) 0#8 0#8))
  | .typesplit => .turn (.host (packWord 0x54#8 0#8 0#8 0#8))
  | .fplookup a b c => .turn (.host (packWord 0x55#8 a b c))
  | .pindec start n => .turn (.host (packWord 0x56#8 start n 0#8))
  | .wireDelim => .wire .waitDelim [0x7E#8]
  | .wireUnexpected x => .wire .waitDelim [x]
  | .wireEsc7E => .wire .inFrame [0x7D#8, 0x5E#8]
  | .wireEsc7D => .wire .inFrame [0x7D#8, 0x5D#8]
  | .wireBadesc x => .wire .inFrame [0x7D#8, x]
  | .wireLiteral x => .wire .inFrame [x]
  | .lineRx b => .turn (.lineByte b)
  | .timeout => .turn .lineTimeout
  | .rxeStep => .turn .rxe

/-- The host commands of R74 (the rows of format "cmd"); the others are wire symbols and events. -/
def Instr.isCommand (i : Instr) : Bool :=
  match encode i with
  | .turn (.host _) => true
  | _ => false

/-- The unit of an instruction (R2, R74); wire symbols and events are the reader's. -/
def Instr.unit : Instr → CxfUnit
  | .nop | .reset | .flush | .status | .clrovr => .system
  | .esc _ | .unesc _ _ => .esc
  | .ckclr | .ckadd _ | .ckrd | .ckvfy _ _ => .ck
  | .rdstart _ | .rdres | .msgrd _ | .msglen => .rx
  | .wireDelim | .wireUnexpected _ | .wireEsc7E | .wireEsc7D | .wireBadesc _ | .wireLiteral _ => .rx
  | .lineRx _ | .timeout | .rxeStep => .rx
  | .txbclr | .txbpush _ | .txsend => .tx
  | .bmload _ _ | .bmrd _ | .fldapply _ _ | .ford _ | .typesplit | .fplookup _ _ _ | .pindec _ _ => .bf

/-- R74: the value of the opcode bits 31:28 of a unit's commands. -/
def CxfUnit.opGroup : CxfUnit → BitVec 4
  | .system => 0
  | .esc => 1
  | .ck => 2
  | .rx => 3
  | .tx => 4
  | .bf => 5

/-! ## The host's table words -/

/-- The turn that a row of spec/opcode_table.json of `nbits` bits stands for: a 32-bit row is a command word (R70); an
8-bit row is a byte the line delivers (the row LINE_RX), the only row of one byte that needs no reader situation to be
read (log entry 12). -/
def tableTurn (nbits w : Nat) : Option Turn :=
  match nbits with
  | 32 => some (.host (BitVec.ofNat 32 w))
  | 8 => some (.lineByte (BitVec.ofNat 8 w))
  | _ => none

/-- The instruction the decoder reads from a word of the opcode table. -/
def decodeTableWord (nbits w : Nat) : Option Instr :=
  match tableTurn nbits w with
  | none => none
  | some t =>
    match decodeTurn t with
    | .ok i => some i
    | .error _ => none

end Sys2Proof
end

