-- ==== Sys2Proof/Config.lean ====
section
/-! DEFINITION. What an implementation fixes and the spec leaves OPEN (spec/00_scope.md R6, R9, R10; spec/93 X1 to X4):
the receive FIFO's capacity, the field-table ROM and the fingerprint catalog ROM. A `Config` carries the proof that it
is well formed, so an ill-formed parameter is no CXF block (X4, R195, R263). The parameters of THE block behind
`State.reset` are opaque: nothing is known of them but that they are well formed (log entries 3, 4 and 5). -/

namespace Sys2Proof

/-- One field table: exactly eight field ids, slot 0 naming bit 7 (R9, R186, R195). -/
abbrev FieldTable := Vector FieldId 8

/-- One entry of the fingerprint catalog (R10). -/
structure FpEntry where
  pattern : BitVec 24
  group   : GroupId
  deriving DecidableEq, Repr, Inhabited

/-- The three parameters as given, before they are checked (R263 step 1). -/
structure RawConfig where
  /-- `RX_DEPTH` (R6). -/
  rxDepth   : Nat
  /-- `FT`, of length `FT_COUNT` (R9). -/
  ft        : List FieldTable
  /-- `FP_CATALOG`, of length `FP_COUNT` (R10). -/
  fpCatalog : List FpEntry
  deriving DecidableEq, Repr, Inhabited

/-- R195: the eight field ids of one table are pairwise distinct. -/
def FieldTable.distinct (t : FieldTable) : Bool := decide t.toList.Nodup

/-- The constraints of R6, R9, R10, R195 and R263 on the parameters. -/
def RawConfig.wf (r : RawConfig) : Bool :=
  decide (1 ≤ r.rxDepth) && decide (r.ft.length ≤ 256) && r.ft.all FieldTable.distinct &&
    decide (r.fpCatalog.length ≤ 65535) && r.fpCatalog.all (fun e => decide (e.group ≠ 0xFFFF#16))

/-- The parameters of a CXF block: only well-formed ones exist (X4). -/
structure Config where
  raw : RawConfig
  ok  : raw.wf = true
  deriving DecidableEq, Repr

/-- Why parameters do not make a CXF block (X4). -/
inductive ConfigError where
  /-- a constraint of R6, R9, R10, R195 or R263 fails; refusing it is safe -/
  | illFormed
  deriving DecidableEq, Repr

/-- Building a block: ill-formed parameters are rejected (X4, R195, R263 step 1). -/
def Config.build (r : RawConfig) : Except ConfigError Config :=
  if h : r.wf = true then .ok ⟨r, h⟩ else .error .illFormed

/-- The smallest well-formed parameters; used only to make `Config.block` total. -/
def Config.least : Config := ⟨⟨1, [], []⟩, by decide⟩

/-- The OPEN parameters of the block behind `State.reset`: a free value, nothing in Lean can evaluate it
(R6, R9, R10; log entries 3, 4 and 5). -/
opaque Config.openParameters : RawConfig

/-- The block's parameters: the free value where it is well formed (every well-formed value is possible), the least
parameters where it is not (that is no CXF block, X4). -/
def Config.block : Config :=
  if h : Config.openParameters.wf = true then ⟨Config.openParameters, h⟩ else Config.least

/-- `RX_DEPTH` (R6). -/
def Config.rxDepth (c : Config) : Nat := c.raw.rxDepth
/-- `FT` (R9). -/
def Config.ft (c : Config) : List FieldTable := c.raw.ft
/-- `FP_CATALOG` (R10). -/
def Config.fpCatalog (c : Config) : List FpEntry := c.raw.fpCatalog

/-- The block's identity (R1, R2). -/
def Config.identity : String := "CXF-1:ESC+CK+RX+TX+BF"

end Sys2Proof
end

