-- ==== Sys2Proof/Machine/State.lean ====
section
/-! DEFINITION. The state of CXF (spec/10_state.md R21 to R35), its reset value (spec/70_reset_and_hazards.md R260), and
the reasons a step can stop. CXF has no registers in the usual sense, no program counter and no addressable memory
(R37, R38, R50): every datum is one of the named elements below. -/

namespace Sys2Proof.Machine

/-- The reader state `RD_ST` (R22). -/
inductive RdSt where
  | idle | waitDelim | readLen | readBody
  deriving DecidableEq, Repr, Inhabited

/-- The status codes (R73); their numbers are `Status.code`. No other code is ever produced. -/
inductive Status where
  | ok | noMessage | busy | noResult | feUnexpected | feBadesc | feTruncated | ckerr | fcm | cfgerr | ambiguous
  | illegalCommand | illegalOperand | txRefused
  deriving DecidableEq, Repr, Inhabited

/-- The read-result register `RD_RES` (R29): a code and 24 bits of information laid out per code (R41). -/
structure ReadResult where
  code : Status
  info : BitVec 24
  deriving DecidableEq, Repr

/-- One entry of the field output `FO` (R34). -/
structure FoEntry where
  fid : FieldId
  bit : Bool
  deriving DecidableEq, Repr

/-- Why the machine stops with a fault. CXF itself has none (R236): both arise only in states that no run reaches, where
a rule's pseudocode has no value. -/
inductive Fault where
  /-- raised by accept in READ_BODY when RD_REM is already 0, so that `RD_REM - 1` of R136 is no value of R26. Safe: no
  run reaches such a state, and nothing is claimed of it. -/
  | rdRemUnderflow
  /-- raised by verify when FB holds fewer than two bytes, so that `FB[n-2]` of R137 does not exist. Safe: no run
  reaches such a state, and nothing is claimed of it. -/
  | frameBufferShort
  deriving DecidableEq, Repr

/-- Why a step is refused. -/
inductive Refusal where
  /-- raised by exec for an instruction that has no meaning yet (none in this model). Safe. -/
  | notModelled (mnemonic : String)
  /-- raised by TIMEOUT and by RXE_STEP in a state where R43 does not enable them: there is no such step. Safe. -/
  | stepNotEnabled
  /-- raised by a wire symbol that is not the symbol the reader's state and its next received byte spell (R77): there is
  no such step. Safe. -/
  | symbolNotNext
  /-- raised by step when no agent has a turn: no act of HOST or LINE is listed and R43 does not enable the RXE, so that
  the block only waits (R248, X17). Safe. -/
  | noTurn
  deriving DecidableEq, Repr

/-- The state. The first group is the spec's (R21 to R35); the last three fields are the model's own. -/
structure State where
  /-- `RXF`, the receive FIFO, head first (R21). -/
  rxf     : List Byte
  /-- `RD_ST` (R22). -/
  rdSt    : RdSt
  /-- `RD_MODE` (R23). -/
  rdMode  : RdMode
  /-- `RD_ESC`, escape pending (R24). -/
  rdEsc   : Bool
  /-- `RD_LEN` (R25). -/
  rdLen   : Byte
  /-- `RD_REM` (R26). -/
  rdRem   : BitVec 9
  /-- `FB`, the frame buffer (R27). -/
  fb      : List Byte
  /-- `MSG`, the message buffer (R28). -/
  msg     : List Byte
  /-- `RD_RES` (R29). -/
  rdRes   : ReadResult
  /-- `CK_S1` (R30). -/
  ckS1    : Byte
  /-- `CK_S2` (R30). -/
  ckS2    : Byte
  /-- `TXB`, the build buffer (R31). -/
  txb     : List Byte
  /-- `TXQ`, every byte handed to the line, in order (R32). -/
  txq     : List Byte
  /-- `BM`, the bitmap buffer (R33). -/
  bm      : List Byte
  /-- `FO`, the field output (R34). -/
  fo      : Vector FoEntry 8
  /-- `FO_VALID` (R34). -/
  foValid : Bool
  /-- `OVR`, sticky receive overrun (R35). -/
  ovr     : Bool
  /-- The model's own: the block's parameters, constant state that no step writes (R36). -/
  cfg     : Config
  /-- The model's own: the acts of HOST and LINE still to come, and where the RXE's turns fall among them: which
  interleaving of R20 this run is (log entry 1). -/
  agenda  : List Turn
  /-- The model's own: the response word of the last step, none after an event (R72; log entry 2). -/
  resp    : Option Word
  deriving DecidableEq, Repr

/-- The machine right after power-on (R260, R261): every element at its reset value, the transmit stream empty, no act
of another agent listed and no response given. -/
def State.reset : State where
  rxf := []
  rdSt := .idle
  rdMode := .nonblock
  rdEsc := false
  rdLen := 0x00#8
  rdRem := 0#9
  fb := []
  msg := []
  rdRes := ⟨.noResult, 0#24⟩
  ckS1 := 0#8
  ckS2 := 0#8
  txb := []
  txq := []
  bm := []
  fo := Vector.replicate 8 ⟨0x0000#16, false⟩
  foValid := false
  ovr := false
  cfg := Config.block
  agenda := []
  resp := none

end Sys2Proof.Machine
end

