-- ==== Sys2Proof/Machine/Operands.lean ====
section
/-! DEFINITION. The pure functions the rules are written over (spec/00_scope.md R11, R15): bit strings, the escape codec
(spec/40_codec.md R100, R101), the Fletcher sums (spec/41_checksum.md R110), the wire frame (spec/30_encoding.md R75), the
bitfield functions (spec/44_bitfield.md R185, R186), the type byte's fields (R78), the fingerprint (R55, R193) and the PIN
digits (R194). No operand is sign-extended, scaled or shifted (R85). -/

namespace Sys2Proof.Machine

/-! ## Bytes and bit strings -/

/-- R12, R85: zero-extension of a byte to the 24 bits of a response's data. -/
def zext24 (b : Byte) : BitVec 24 := b.setWidth 24

/-- R12: a natural number as 24 bits of data. -/
def nat24 (n : Nat) : BitVec 24 := BitVec.ofNat 24 n

/-- R11: the bit string of a byte, most significant bit first: entry i is `b[7-i]`. -/
def bitstr (b : Byte) : List Bool := (List.range 8).map fun i => b.getLsbD (7 - i)

/-- R11, R185: the 8-character binary string of a byte. -/
def bitstrText (b : Byte) : String := String.ofList ((bitstr b).map fun x => if x then '1' else '0')

/-- One lowercase hex digit (R148). -/
def hexDigit (n : Nat) : Char := "0123456789abcdef".toList.getD n '0'

/-- R148: an entry of the source's message dictionary: the byte as two lowercase hex digits. -/
def dictEntry (b : Byte) : String := String.ofList [hexDigit (b.toNat / 16), hexDigit (b.toNat % 16)]

/-! ## The escape codec (R100, R101) -/

/-- R100: one byte escaped. -/
def esc1 (b : Byte) : List Byte :=
  if b = 0x7E#8 then [0x7D#8, 0x5E#8] else if b = 0x7D#8 then [0x7D#8, 0x5D#8] else [b]

/-- R100: `escape(s)`, left to right. -/
def escape : List Byte → List Byte
  | [] => []
  | b :: s => esc1 b ++ escape s

/-- R101: how `unescape` fails. -/
inductive UnescapeError where
  /-- FE_BADESC(x): 0x7D is followed by x, neither 0x5E nor 0x5D -/
  | badEsc (x : Byte)
  /-- FE_TRUNCATED: a lone 0x7D at the end -/
  | truncated
  deriving DecidableEq, Repr

/-- R77, R101, R134: the byte that 0x7D followed by `x` stands for, if any. -/
def escapedByte (x : Byte) : Option Byte :=
  if x = 0x5E#8 then some 0x7E#8 else if x = 0x5D#8 then some 0x7D#8 else none

/-- R101: put a decoded byte before a decoded rest; an error in the rest stays that error. -/
def consOk (d : Byte) : Except UnescapeError (List Byte) → Except UnescapeError (List Byte)
  | .ok r => .ok (d :: r)
  | .error e => .error e

/-- R101: `unescape(s)`, the first error from the left. A raw 0x7E passes through as data. -/
def unescape : List Byte → Except UnescapeError (List Byte)
  | [] => .ok []
  | b :: s =>
    if b = 0x7D#8 then
      match s with
      | [] => .error .truncated
      | x :: r =>
        match escapedByte x with
        | some d => consOk d (unescape r)
        | none => .error (.badEsc x)
    else consOk b (unescape s)

/-! ## The checksum (R110) -/

/-- R110: addition modulo 255 of two bytes, computed exactly and then narrowed. -/
def add255 (x y : Byte) : Byte := BitVec.ofNat 8 ((x.toNat + y.toNat) % 255)

/-- R110: one step of the sums; sum2 adds the NEW sum1. -/
def ckStep (p : Byte × Byte) (b : Byte) : Byte × Byte :=
  (add255 p.1 b, add255 p.2 (add255 p.1 b))

/-- R110: `fletcher(s)`. -/
def fletcher (s : List Byte) : Byte × Byte := s.foldl ckStep (0#8, 0#8)

/-- R54, R75: the two checksum bytes of a frame in wire order, sum1 first (log entry 6). -/
def checksumBytes (body : List Byte) : List Byte := [(fletcher body).1, (fletcher body).2]

/-- R75, R172: the wire frame of `[length, type, payload...]`: the raw delimiter, then everything else escaped. -/
def frame (body : List Byte) : List Byte := 0x7E#8 :: escape (body ++ checksumBytes body)

/-- R137: split off the final two bytes of the frame buffer: the body, the received first and second checksum byte. -/
def splitChecksum (fb : List Byte) : Option (List Byte × Byte × Byte) :=
  match fb.drop (fb.length - 2) with
  | [lo, hi] => some (fb.take (fb.length - 2), lo, hi)
  | _ => none

/-! ## The bitfield functions -/

/-- R185: `toBitMap`, each bit string held as the byte it was made from (R33). The comparison is on integers. -/
def toBitMap (start count : Nat) (msg : List Byte) : Option (List Byte) :=
  if (count : Int) > (msg.length : Int) - start then none else some ((msg.drop start).take count)

/-- R186: `applyFieldTable`: slot i names bit 7 - i. -/
def applyFieldTable (names : FieldTable) (b : Byte) : Vector FoEntry 8 :=
  Vector.ofFn fun i => ⟨names[i], b.getLsbD (7 - i)⟩

/-- R78: bits 5:0 of a type byte, the canonical type (`typeByte & 0x3F`). -/
def canonicalType (t : Byte) : BitVec 6 := t.extractLsb' 0 6
/-- R78: bit 6 of a type byte, the partition selector. -/
def selBit (t : Byte) : Bool := t.getLsbD 6
/-- R78: bit 7 of a type byte, ACK requested. -/
def ackBit (t : Byte) : Bool := t.getLsbD 7

/-- R192: the data TYPESPLIT answers: canonical type in D[13:8], SEL in D[1], ACK in D[0]. -/
def typeSplitData (t : Byte) : BitVec 24 :=
  0#8 ++ 0#2 ++ canonicalType t ++ 0#6 ++ BitVec.ofBool (selBit t) ++ BitVec.ofBool (ackBit t)

/-- R55: the fingerprint of three configuration bytes, the first most significant. -/
def fingerprint (a b c : Byte) : BitVec 24 := a ++ b ++ c

/-- R193: what a fingerprint is classified as. -/
inductive FpKind where
  | noMatch
  | matched (group : GroupId)
  | ambiguous
  deriving DecidableEq, Repr

/-- R193: the catalog entries with the pattern, in catalog order (`M`). -/
def fpMatches (catalog : List FpEntry) (fp : BitVec 24) : List FpEntry := catalog.filter fun e => e.pattern = fp

/-- R193: no entry, entries of one group, or entries of two or more groups. -/
def fpKind : List FpEntry → FpKind
  | [] => .noMatch
  | e :: es => if es.all (fun x => x.group = e.group) then .matched e.group else .ambiguous

/-- R193: D[21:16], the number of matching entries, saturating at 63. -/
def fpCount (m : List FpEntry) : BitVec 6 := BitVec.ofNat 6 (min m.length 63)

/-- R194: the digits of the PIN bytes, two per byte, low nibble first (log entry 7). -/
def pinDigits (bytes : List Byte) : List (BitVec 4) :=
  bytes.flatMap fun b => [b.extractLsb' 0 4, b.extractLsb' 4 4]

/-- R194: six digits as data, the first in D[23:20], digits beyond the code length 0. -/
def pinData (d : List (BitVec 4)) : BitVec 24 :=
  d.getD 0 0 ++ d.getD 1 0 ++ d.getD 2 0 ++ d.getD 3 0 ++ d.getD 4 0 ++ d.getD 5 0

/-! ## The message catalog (R79), which no instruction reads -/

/-- R79: which way messages of a kind go. -/
inductive MessageDirection where
  | received | sent | both
  deriving DecidableEq, Repr

/-- R79: one row of the message catalog. -/
structure MessageKind where
  canonical : BitVec 6
  direction : MessageDirection
  name      : String
  deriving DecidableEq, Repr

/-- R79: the message catalog, by canonical type. -/
def messageCatalog : List MessageKind :=
  [⟨0x01#6, .received, "InterfaceConfig"⟩, ⟨0x03#6, .received, "ZoneName"⟩, ⟨0x04#6, .received, "ZoneStatus"⟩] ++
  [⟨0x05#6, .received, "ZoneSnapshot"⟩, ⟨0x06#6, .received, "PartitionStatus"⟩, ⟨0x07#6, .received, "PartitionSnapshot"⟩] ++
  [⟨0x08#6, .received, "SystemStatus"⟩, ⟨0x09#6, .received, "X10Received"⟩, ⟨0x0A#6, .received, "LogEvent"⟩] ++
  [⟨0x0B#6, .received, "KeypadReceived"⟩, ⟨0x10#6, .received, "ProgramDataReply"⟩, ⟨0x12#6, .received, "UserInformationReply"⟩] ++
  [⟨0x1C#6, .both, "CommandFailed"⟩, ⟨0x1D#6, .both, "ACK"⟩, ⟨0x1E#6, .both, "NAK"⟩] ++
  [⟨0x1F#6, .both, "CAN"⟩, ⟨0x21#6, .sent, "InterfaceConfigRequest"⟩, ⟨0x23#6, .sent, "ZoneNameRequest"⟩] ++
  [⟨0x24#6, .sent, "ZoneStatusRequest"⟩, ⟨0x25#6, .sent, "ZonesSnapshotRequest"⟩, ⟨0x26#6, .sent, "PartitionStatusRequest"⟩] ++
  [⟨0x27#6, .sent, "PartitionSnapshotRequest"⟩, ⟨0x28#6, .sent, "SystemStatusRequest"⟩, ⟨0x33#6, .sent, "UserInfoRequestWithoutPin"⟩] ++
  [⟨0x3B#6, .sent, "SetClockCalendar"⟩, ⟨0x3F#6, .sent, "ZoneBypassToggle"⟩]

/-- R79: the set of canonical types that are received. -/
def receivedTypes : List (BitVec 6) :=
  (messageCatalog.filter fun k => k.direction ≠ .sent).map MessageKind.canonical

end Sys2Proof.Machine
end

