-- ==== Sys2Proof/Machine/Flags.lean ====
section
/-! DEFINITION. Status codes and status flags: the numbers of the codes (spec/30_encoding.md R73), the reader state's two
bits (spec/10_state.md R22), and the STATUS view with its flags BUSY, ESC, OVR and FOV (R39, R40). CXF has no condition
codes that a command reads (R39). -/

namespace Sys2Proof.Machine

/-- R73: the numeric value of each status code. -/
def Status.code : Status → Byte
  | .ok => 0x00#8
  | .noMessage => 0x01#8
  | .busy => 0x02#8
  | .noResult => 0x03#8
  | .feUnexpected => 0x10#8
  | .feBadesc => 0x11#8
  | .feTruncated => 0x12#8
  | .ckerr => 0x20#8
  | .fcm => 0x30#8
  | .cfgerr => 0x31#8
  | .ambiguous => 0x32#8
  | .illegalCommand => 0x40#8
  | .illegalOperand => 0x41#8
  | .txRefused => 0x50#8

/-- R22: the two bits of `RD_ST`. -/
def RdSt.bits : RdSt → BitVec 2
  | .idle => 0
  | .waitDelim => 1
  | .readLen => 2
  | .readBody => 3

/-- R23: the bit of `RD_MODE`. -/
def modeBit : RdMode → BitVec 1
  | .nonblock => 0
  | .block => 1

/-- R40: BUSY, 1 when a read is in progress. -/
def State.busy (s : State) : Bool := decide (s.rdSt ≠ .idle)

/-- R40: RXCNT, the number of bytes in RXF, saturating at 255. -/
def State.rxCount (s : State) : Byte := BitVec.ofNat 8 (min s.rxf.length 255)

/-- R40: the STATUS view. -/
def State.statusView (s : State) : BitVec 24 :=
  s.rdRes.code.code ++ s.rxCount ++ 0#1 ++ BitVec.ofBool s.foValid ++ BitVec.ofBool s.ovr ++ BitVec.ofBool s.rdEsc ++
    modeBit s.rdMode ++ s.rdSt.bits ++ BitVec.ofBool s.busy

/-- R41, R141: the info of FE_TRUNCATED: `|FB|` in bits 8:0 and `RD_ESC` in bit 16. -/
def truncatedInfo (s : State) : BitVec 24 :=
  0#7 ++ BitVec.ofBool s.rdEsc ++ 0#7 ++ BitVec.ofNat 9 s.fb.length

end Sys2Proof.Machine
end

