-- ==== Sys2Proof/Machine/Ops.lean ====
section
/-! DEFINITION. The operations that the meanings share: responding (spec/00_scope.md R14, spec/30_encoding.md R72), the
enabling conditions (spec/10_state.md R43), the reader's exits and its accept and verify (spec/42_frame_reader.md R135 to
R139), the next wire symbol (R77), and the fetch of the next turn. CXF takes no exception (spec/60_exceptions.md R236): the
one shared operation that records an error is `State.frameError` (R138), and recovery is the next RDSTART (R241). -/

namespace Sys2Proof.Machine

/-! ## Responses -/

/-- R14, R72: end a command step with the response word `ST` in bits 31:24 and `D` in bits 23:0. -/
def State.respond (st : Status) (d : BitVec 24) (s : State) : State := { s with resp := some (st.code ++ d) }

/-- R140, R141: an event has no response. -/
def State.silent (s : State) : State := { s with resp := none }

/-- R225, R226: the response to a word that spells no command; no state changes. -/
def State.rejectWord (e : CommandError) (s : State) : State :=
  match e with
  | .unassignedOpcode => s.respond .illegalCommand 0#24
  | .reservedOperandBits => s.respond .illegalOperand 0#24

/-! ## Enabling (R43) -/

/-- R43: the reader is inside a frame, in READ_LEN or READ_BODY. -/
def State.inFrame (s : State) : Bool := decide (s.rdSt = .readLen) || decide (s.rdSt = .readBody)

/-- R43: when the RXE may take a step. -/
def State.rxeEnabled (s : State) : Bool :=
  decide (s.rdSt ≠ .idle) &&
    (decide (s.rxf ≠ []) || (decide (s.rdSt = .waitDelim) && decide (s.rdMode = .nonblock)))

/-- R43: when the line may signal the timeout. -/
def State.timeoutEnabled (s : State) : Bool :=
  decide (s.rxf = []) && (s.inFrame || (decide (s.rdSt = .waitDelim) && decide (s.rdMode = .block)))

/-! ## The reader's exits (R138, R139) -/

/-- R138: `frame_error(code, info)`, the exit of every FramingError: the FIFO is flushed and the frame discarded. -/
def State.frameError (code : Status) (info : BitVec 24) (s : State) : State :=
  { s with rxf := [], fb := [], rdEsc := false, rdRem := 0#9, rdSt := .idle, rdRes := ⟨code, info⟩ }

/-- R139: `complete(code, info)`, the exit of a message, a ChecksumError or `None`; RXF is not touched. -/
def State.complete (code : Status) (info : BitVec 24) (s : State) : State :=
  { s with rdSt := .idle, rdEsc := false, rdRem := 0#9, rdRes := ⟨code, info⟩ }

/-! ## The reader's accept and verify (R135 to R137) -/

/-- R133: the delimiter opens a frame. -/
def State.openFrame (s : State) : State := { s with fb := [], rdEsc := false, rdSt := .readLen }

/-- R135: `accept(d)` in READ_LEN. -/
def State.acceptLen (d : Byte) (s : State) : State :=
  { s with rdLen := d, fb := [d], rdRem := BitVec.ofNat 9 (d.toNat + 2), rdSt := .readBody }

/-- R137: the outcome of comparing the received checksum bytes with the computed sums. -/
def State.judge (body : List Byte) (lo hi : Byte) (s : State) : State :=
  if (fletcher body).1 = lo ∧ (fletcher body).2 = hi then
    ({ s with msg := body }).complete .ok (nat24 body.length)
  else s.complete .ckerr (0#8 ++ hi ++ lo)

/-- R137: `verify()`. FB is emptied in the same step. -/
def State.verify (s : State) : Host.Outcome State Fault Refusal :=
  match splitChecksum s.fb with
  | none => .fault .frameBufferShort
  | some (body, lo, hi) => .next { s.judge body lo hi with fb := [] }

/-- R136: `accept(d)` in READ_BODY; the last byte runs verify in the same step. -/
def State.acceptBody (d : Byte) (s : State) : Host.Outcome State Fault Refusal :=
  if s.rdRem = 0#9 then .fault .rdRemUnderflow
  else
    let s' : State := { s with fb := s.fb ++ [d], rdRem := s.rdRem - 1#9 }
    if s'.rdRem = 0#9 then s'.verify else .next s'

/-- R134: `accept(d)`, R135 in READ_LEN and R136 in READ_BODY. -/
def State.accept (d : Byte) (s : State) : Host.Outcome State Fault Refusal :=
  if s.rdSt = .readLen then .next (s.acceptLen d) else s.acceptBody d

/-! ## The wire symbol the reader is at (R77) -/

/-- R77: the reader situation, none when no read is in progress. -/
def State.wireCtx (s : State) : Option WireCtx :=
  match s.rdSt with
  | .idle => none
  | .waitDelim => some .waitDelim
  | .readLen => some .inFrame
  | .readBody => some .inFrame

/-- R24, R77: the bytes of the present symbol that the RXE has consumed already. -/
def State.symbolStart (s : State) : List Byte :=
  if s.inFrame && s.rdEsc then [0x7D#8] else []

/-- R77: the wire symbol that the next byte of RXF completes; none when there is no byte, no read, or the byte is the
first of an escape. -/
def State.symbolNext (s : State) : Option Instr :=
  match s.wireCtx, s.rxf with
  | some ctx, b :: _ =>
    match decodeSymbol ctx (s.symbolStart ++ [b]) with
    | .ok i => some i
    | .error _ => none
  | _, _ => none

/-- R13: the state after the RXE has popped one byte of RXF, as the first effect of an event step. -/
def State.popped (s : State) : State := { s with rxf := s.rxf.tail, resp := none }

/-- The meaning `f` of a wire symbol where that symbol is the next one; a refusal where it is not. -/
def whenNext (i : Instr) (s : State) (f : State → Host.Outcome State Fault Refusal) :
    Host.Outcome State Fault Refusal :=
  if s.symbolNext = some i then f s.popped else .refused .symbolNotNext

/-! ## The fetch of the next turn (R20; log entry 1) -/

/-- The turn of the next step and the state that it acts on: the first turn of the agenda; when none is left, the RXE's
own turn where R43 enables it; otherwise none. -/
def State.fetch (s : State) : Option (Turn × State) :=
  match s.agenda with
  | t :: rest => some (t, { s with agenda := rest })
  | [] => if s.rxeEnabled then some (.rxe, s) else none

/-- The state with a turn put before the turns still to come. -/
def State.offer (t : Turn) (s : State) : State := { s with agenda := t :: s.agenda }

end Sys2Proof.Machine
end

