-- ==== Sys2Proof/Machine/Bitfield.lean ====
section
/-! DEFINITION. The bitfield decoder (spec/44_bitfield.md R187 to R194). -/

namespace Sys2Proof.Machine

/-- R187: BMLOAD loads a range of the message into BM; FO is invalidated, and a failed load empties BM. -/
def execBmload (start count : Byte) (s : State) : Host.Outcome State Fault Refusal :=
  .next
    (match toBitMap start.toNat count.toNat s.msg with
     | none => ({ s with foValid := false, bm := [] } : State).respond .fcm 0#24
     | some bytes => ({ s with foValid := false, bm := bytes } : State).respond .ok (zext24 count))

/-- R188: BMRD reads bitmap entry j. -/
def execBmrd (j : Byte) (s : State) : Host.Outcome State Fault Refusal :=
  .next
    (match s.bm[j.toNat]? with
     | some b => s.respond .ok (zext24 b)
     | none => s.respond .fcm 0#24)

/-- R189: FLDAPPLY applies table t to bitmap entry j; the table number is tested first (R238). -/
def execFldapply (t j : Byte) (s : State) : Host.Outcome State Fault Refusal :=
  .next
    (match s.cfg.ft[t.toNat]? with
     | none => s.respond .illegalOperand 0#24
     | some names =>
      match s.bm[j.toNat]? with
      | none => ({ s with foValid := false } : State).respond .fcm 0#24
      | some b =>
        ({ s with fo := applyFieldTable names b, foValid := true } : State).respond .ok (0x00#8 ++ t ++ b))

/-- R191: FORD reads field-output entry i. -/
def execFord (i : BitVec 3) (s : State) : Host.Outcome State Fault Refusal :=
  .next
    (if s.foValid then
      s.respond .ok (0#7 ++ BitVec.ofBool (s.fo[i.toNat]'i.isLt).bit ++ (s.fo[i.toNat]'i.isLt).fid)
     else s.respond .fcm 0#24)

/-- R192: TYPESPLIT splits the held message's type byte. -/
def execTypesplit (s : State) : Host.Outcome State Fault Refusal :=
  .next
    (match s.msg with
     | _ :: t :: _ => s.respond .ok (typeSplitData t)
     | _ => s.respond .fcm 0#24)

/-- R193: FPLOOKUP classifies a fingerprint against the catalog. -/
def execFplookup (a b c : Byte) (s : State) : Host.Outcome State Fault Refusal :=
  let m := fpMatches s.cfg.fpCatalog (fingerprint a b c)
  .next
    (match fpKind m with
     | .noMatch => s.respond .ok (0b00#2 ++ 0#6 ++ 0xFFFF#16)
     | .matched g => s.respond .ok (0b01#2 ++ fpCount m ++ g)
     | .ambiguous => s.respond .ambiguous (0b10#2 ++ fpCount m ++ 0xFFFF#16))

/-- R194: PINDEC un-swaps PIN digits; the code length is tested before the message length (R238). -/
def execPindec (start n : Byte) (s : State) : Host.Outcome State Fault Refusal :=
  .next
    (if n ≠ 4#8 ∧ n ≠ 6#8 then s.respond .cfgerr (zext24 n)
     else if ((n.toNat / 2 : Nat) : Int) > (s.msg.length : Int) - start.toNat then s.respond .fcm 0#24
     else s.respond .ok (pinData (pinDigits ((s.msg.drop start.toNat).take (n.toNat / 2)))))

end Sys2Proof.Machine
end

