-- ==== Sys2Proof/Machine/Checksum.lean ====
section
/-! DEFINITION. The commands of the checksum unit (spec/41_checksum.md R113 to R116) over the host-visible accumulator,
which the reader and the writer never touch (R118). -/

namespace Sys2Proof.Machine

/-- R115: the accumulator as data, sum2 in D[15:8] and sum1 in D[7:0]. -/
def State.ckData (s : State) : BitVec 24 := 0x00#8 ++ s.ckS2 ++ s.ckS1

/-- R113: CKCLR clears the accumulator. -/
def execCkclr (s : State) : Host.Outcome State Fault Refusal :=
  .next (({ s with ckS1 := 0#8, ckS2 := 0#8 } : State).respond .ok 0#24)

/-- R114: the accumulator after one more byte. -/
def State.accumulate (b : Byte) (s : State) : State :=
  { s with ckS1 := (ckStep (s.ckS1, s.ckS2) b).1, ckS2 := (ckStep (s.ckS1, s.ckS2) b).2 }

/-- R114: CKADD accumulates one byte and answers the new sums. -/
def execCkadd (b : Byte) (s : State) : Host.Outcome State Fault Refusal :=
  .next ((s.accumulate b).respond .ok (s.accumulate b).ckData)

/-- R115: CKRD reads the accumulator. -/
def execCkrd (s : State) : Host.Outcome State Fault Refusal := .next (s.respond .ok s.ckData)

/-- R116: CKVFY compares the accumulator with a received checksum. -/
def execCkvfy (lo hi : Byte) (s : State) : Host.Outcome State Fault Refusal :=
  .next
    (if s.ckS1 = lo ∧ s.ckS2 = hi then s.respond .ok (0#7 ++ 1#1 ++ s.ckS2 ++ s.ckS1)
     else s.respond .ckerr (0#7 ++ 0#1 ++ s.ckS2 ++ s.ckS1))

end Sys2Proof.Machine
end

