-- ==== Sys2Proof/Machine/Codec.lean ====
section
/-! DEFINITION. The commands of the escape codec (spec/40_codec.md R102, R103). -/

namespace Sys2Proof.Machine

/-- R102: the data ESC answers: the number of output bytes in D[17:16], the first in D[15:8], the second or 0. -/
def escData (a : Byte) : BitVec 24 :=
  let e := esc1 a
  if e.length = 1 then 0#6 ++ 1#2 ++ e.getD 0 0#8 ++ 0x00#8 else 0#6 ++ 2#2 ++ e.getD 0 0#8 ++ e.getD 1 0#8

/-- R102: ESC escapes one byte. -/
def execEsc (a : Byte) (s : State) : Host.Outcome State Fault Refusal := .next (s.respond .ok (escData a))

/-- R103: UNESC decodes one wire symbol from its first byte and a look-ahead byte. -/
def execUnesc (b0 b1 : Byte) (s : State) : Host.Outcome State Fault Refusal :=
  .next
    (if b0 ≠ 0x7D#8 then s.respond .ok (0#6 ++ 1#2 ++ 0x00#8 ++ b0)
     else
      match escapedByte b1 with
      | some d => s.respond .ok (0#6 ++ 2#2 ++ 0x00#8 ++ d)
      | none => s.respond .feBadesc (zext24 b1))

end Sys2Proof.Machine
end

