-- ==== Sys2Proof/Machine/Reader.lean ====
section
/-! DEFINITION. The frame reader (spec/42_frame_reader.md): its commands RDSTART, RDRES, MSGRD and MSGLEN (R131, R142 to
R144), the receive engine's step (R132 to R134) and the line's two events (R140, R141). -/

namespace Sys2Proof.Machine

/-! ## Commands -/

/-- R131: the state in which a read has been started: MSG emptied, the mode taken, the reader waiting. -/
def State.startRead (mode : RdMode) (s : State) : State :=
  { s with msg := [], rdMode := mode, fb := [], rdEsc := false, rdLen := 0#8, rdRem := 0#9, rdSt := .waitDelim }

/-- R131: a non-blocking read that finds nothing pending is complete at once. -/
def State.startNothing (mode : RdMode) (s : State) : State :=
  { s with msg := [], rdMode := mode, rdRes := ⟨.noMessage, 0#24⟩ }

/-- R131: RDSTART starts one read; BUSY is tested first (R238). -/
def execRdstart (mode : RdMode) (s : State) : Host.Outcome State Fault Refusal :=
  .next
    (if s.rdSt ≠ .idle then s.respond .busy 0#24
     else if mode = .nonblock ∧ s.rxf = [] then (s.startNothing mode).respond .noMessage 0#24
     else (s.startRead mode).respond .ok 0#24)

/-- R142: RDRES reads the outcome of the last read. -/
def execRdres (s : State) : Host.Outcome State Fault Refusal :=
  .next (if s.rdSt ≠ .idle then s.respond .busy 0#24 else s.respond s.rdRes.code s.rdRes.info)

/-- R143: MSGRD reads one byte of the validated message. -/
def execMsgrd (i : Byte) (s : State) : Host.Outcome State Fault Refusal :=
  .next
    (match s.msg[i.toNat]? with
     | some b => s.respond .ok (zext24 b)
     | none => s.respond .fcm 0#24)

/-- R144: MSGLEN reads the length of the validated message. -/
def execMsglen (s : State) : Host.Outcome State Fault Refusal := .next (s.respond .ok (nat24 s.msg.length))

/-! ## The receive engine (R132 to R134) -/

/-- R133: the RXE in WAIT_DELIM. The empty branch is reached only in NONBLOCK (R43). -/
def rxeWaitDelim (s : State) : Host.Outcome State Fault Refusal :=
  match s.rxf with
  | [] => .next (s.complete .noMessage 0#24)
  | b :: rest =>
    let s' : State := { s with rxf := rest }
    .next (if b = 0x7E#8 then s'.openFrame else s'.frameError .feUnexpected (zext24 b))

/-- R134: the RXE in READ_LEN and READ_BODY consumes one byte as part of a wire symbol. -/
def rxeInFrame (s : State) : Host.Outcome State Fault Refusal :=
  match s.rxf with
  | [] => .refused .stepNotEnabled
  | b :: rest =>
    let s' : State := { s with rxf := rest }
    if s.rdEsc then
      match escapedByte b with
      | some d => ({ s' with rdEsc := false } : State).accept d
      | none => .next (s'.frameError .feBadesc (zext24 b))
    else if b = 0x7D#8 then .next { s' with rdEsc := true }
    else s'.accept b

/-- R132: RXE_STEP takes the step of the current reader state where R43 enables it; there is none in IDLE. -/
def execRxeStep (s : State) : Host.Outcome State Fault Refusal :=
  if s.rxeEnabled then
    match s.rdSt with
    | .idle => .refused .stepNotEnabled
    | .waitDelim => rxeWaitDelim s.silent
    | .readLen => rxeInFrame s.silent
    | .readBody => rxeInFrame s.silent
  else .refused .stepNotEnabled

/-! ## The line's events (R140, R141) -/

/-- R140: the byte is pushed, or lost with the overrun flag set. -/
def State.receive (b : Byte) (s : State) : State :=
  if s.rxf.length < s.cfg.rxDepth then { s with rxf := s.rxf ++ [b] } else { s with ovr := true }

/-- R140: LINE_RX delivers one received byte. -/
def execLineRx (b : Byte) (s : State) : Host.Outcome State Fault Refusal := .next (s.receive b).silent

/-- R141: TIMEOUT, where R43 enables it: no message before the delimiter, a truncated frame after it. -/
def execTimeout (s : State) : Host.Outcome State Fault Refusal :=
  if s.timeoutEnabled then
    .next
      (if s.rdSt = .waitDelim then (s.complete .noMessage 0#24).silent
       else (s.frameError .feTruncated (truncatedInfo s)).silent)
  else .refused .stepNotEnabled

end Sys2Proof.Machine
end

