-- ==== Sys2Proof/Machine/System.lean ====
section
/-! DEFINITION. The system commands (spec/45_system.md R220 to R224). -/

namespace Sys2Proof.Machine

/-- R220: NOP does nothing. -/
def execNop (s : State) : Host.Outcome State Fault Refusal := .next (s.respond .ok 0#24)

/-- R221, R260, R261: RESET gives every element of R21 to R35 but TXQ its reset value. The parameters are no state (R36)
and the other agents' acts are not CXF's. -/
def execReset (s : State) : Host.Outcome State Fault Refusal :=
  .next (({ State.reset with txq := s.txq, cfg := s.cfg, agenda := s.agenda } : State).respond .ok 0#24)

/-- R222: FLUSH empties RXF and nothing else. -/
def execFlush (s : State) : Host.Outcome State Fault Refusal := .next (({ s with rxf := [] } : State).respond .ok 0#24)

/-- R223: STATUS answers the STATUS view (R40). -/
def execStatus (s : State) : Host.Outcome State Fault Refusal := .next (s.respond .ok s.statusView)

/-- R224: CLROVR clears the sticky overrun flag. -/
def execClrovr (s : State) : Host.Outcome State Fault Refusal := .next (({ s with ovr := false } : State).respond .ok 0#24)

end Sys2Proof.Machine
end

