-- ==== Sys2Proof/Machine/Wire.lean ====
section
/-! DEFINITION. The wire symbols of the reader (spec/30_encoding.md R77), each as the step in which the reader completes
the symbol: it consumes the symbol's last byte and does what R77 gives the symbol its meaning by (R133 to R138). A symbol
that is not the next one is refused (log entry 9). -/

namespace Sys2Proof.Machine

/-- R77, R133: the delimiter: start of frame. -/
def execWireDelim (s : State) : Host.Outcome State Fault Refusal :=
  whenNext .wireDelim s fun t => .next t.openFrame

/-- R77, R133: an unexpected byte in WAIT_DELIM: FE_UNEXPECTED, flush. -/
def execWireUnexpected (x : Byte) (s : State) : Host.Outcome State Fault Refusal :=
  whenNext (.wireUnexpected x) s fun t => .next (t.frameError .feUnexpected (zext24 x))

/-- R77, R134: 7d 5e inside a frame: the decoded byte 0x7E. -/
def execWireEsc7E (s : State) : Host.Outcome State Fault Refusal :=
  whenNext .wireEsc7E s fun t => ({ t with rdEsc := false } : State).accept 0x7E#8

/-- R77, R134: 7d 5d inside a frame: the decoded byte 0x7D. -/
def execWireEsc7D (s : State) : Host.Outcome State Fault Refusal :=
  whenNext .wireEsc7D s fun t => ({ t with rdEsc := false } : State).accept 0x7D#8

/-- R77, R134: 7d and any other byte x: FE_BADESC(x), flush. -/
def execWireBadesc (x : Byte) (s : State) : Host.Outcome State Fault Refusal :=
  whenNext (.wireBadesc x) s fun t => .next (t.frameError .feBadesc (zext24 x))

/-- R77, R134, R145: any byte but 0x7D inside a frame, 0x7E included: that byte, literally. -/
def execWireLiteral (x : Byte) (s : State) : Host.Outcome State Fault Refusal :=
  whenNext (.wireLiteral x) s fun t => t.accept x

end Sys2Proof.Machine
end

