-- ==== Sys2Proof/Machine/Writer.lean ====
section
/-! DEFINITION. The frame writer (spec/43_frame_writer.md R170 to R174). It neither reads nor writes the reader's state or
the accumulator, and it does not check the length byte (R173). -/

namespace Sys2Proof.Machine

/-- R170: TXBCLR empties the build buffer. -/
def execTxbclr (s : State) : Host.Outcome State Fault Refusal := .next (({ s with txb := [] } : State).respond .ok 0#24)

/-- R171: TXBPUSH appends one byte unescaped and answers the new length; a full buffer of 256 bytes refuses it. -/
def execTxbpush (b : Byte) (s : State) : Host.Outcome State Fault Refusal :=
  .next
    (if s.txb.length = 256 then s.respond .txRefused (nat24 256)
     else ({ s with txb := s.txb ++ [b] } : State).respond .ok (nat24 (s.txb.length + 1)))

/-- R172: TXSEND frames the build buffer onto the transmit stream, whole, and empties it. -/
def execTxsend (s : State) : Host.Outcome State Fault Refusal :=
  .next
    (if s.txb = [] then s.respond .txRefused 0#24
     else
      ({ s with txq := s.txq ++ frame s.txb, txb := [] } : State).respond .ok (nat24 (frame s.txb).length))

end Sys2Proof.Machine
end

