-- ==== Sys2Proof/Machine/Dispatch.lean ====
section
/-! DEFINITION. The dispatch: one arm per instruction, each one call of its meaning. -/

namespace Sys2Proof.Machine

def exec (i : Instr) (s : State) : Host.Outcome State Fault Refusal :=
  match i with
  | .nop => Sys2Proof.Machine.execNop s
  | .reset => Sys2Proof.Machine.execReset s
  | .flush => Sys2Proof.Machine.execFlush s
  | .status => Sys2Proof.Machine.execStatus s
  | .clrovr => Sys2Proof.Machine.execClrovr s
  | .esc a => Sys2Proof.Machine.execEsc a s
  | .unesc b0 b1 => Sys2Proof.Machine.execUnesc b0 b1 s
  | .ckclr => Sys2Proof.Machine.execCkclr s
  | .ckadd b => Sys2Proof.Machine.execCkadd b s
  | .ckrd => Sys2Proof.Machine.execCkrd s
  | .ckvfy lo hi => Sys2Proof.Machine.execCkvfy lo hi s
  | .rdstart mode => Sys2Proof.Machine.execRdstart mode s
  | .rdres => Sys2Proof.Machine.execRdres s
  | .msgrd index => Sys2Proof.Machine.execMsgrd index s
  | .msglen => Sys2Proof.Machine.execMsglen s
  | .txbclr => Sys2Proof.Machine.execTxbclr s
  | .txbpush b => Sys2Proof.Machine.execTxbpush b s
  | .txsend => Sys2Proof.Machine.execTxsend s
  | .bmload start count => Sys2Proof.Machine.execBmload start count s
  | .bmrd j => Sys2Proof.Machine.execBmrd j s
  | .fldapply t j => Sys2Proof.Machine.execFldapply t j s
  | .ford k => Sys2Proof.Machine.execFord k s
  | .typesplit => Sys2Proof.Machine.execTypesplit s
  | .fplookup a b c => Sys2Proof.Machine.execFplookup a b c s
  | .pindec start n => Sys2Proof.Machine.execPindec start n s
  | .wireDelim => Sys2Proof.Machine.execWireDelim s
  | .wireUnexpected x => Sys2Proof.Machine.execWireUnexpected x s
  | .wireEsc7E => Sys2Proof.Machine.execWireEsc7E s
  | .wireEsc7D => Sys2Proof.Machine.execWireEsc7D s
  | .wireBadesc x => Sys2Proof.Machine.execWireBadesc x s
  | .wireLiteral x => Sys2Proof.Machine.execWireLiteral x s
  | .lineRx b => Sys2Proof.Machine.execLineRx b s
  | .timeout => Sys2Proof.Machine.execTimeout s
  | .rxeStep => Sys2Proof.Machine.execRxeStep s

end Sys2Proof.Machine
end

