-- ==== Sys2Proof/Machine/Step.lean ====
section
/-! DEFINITION. One step of the block (spec/10_state.md R20): exactly one step of one agent. The agent whose turn it is
stands in the state (log entry 1), so that the step is a function. -/

namespace Sys2Proof.Machine

/-- One step: the next turn is fetched and decoded; an instruction is executed, a word that spells no command is answered
(R225, R226), and where no agent has a turn the block waits. -/
def step (s : State) : Host.Outcome State Fault Refusal :=
  match s.fetch with
  | none => .refused .noTurn
  | some (t, s') =>
    match decodeTurn t with
    | .ok i => exec i s'
    | .error e => .next (s'.rejectWord e)

/-- The state with a word of the opcode table standing where step fetches its next instruction: as the first turn. -/
def State.withFetchWord (s : State) (nbits w : Nat) : State :=
  match tableTurn nbits w with
  | some t => s.offer t
  | none => s

end Sys2Proof.Machine
end

