-- ==== Sys2Proof/Machine/Pseudo.lean ====
section
/-! DEFINITION. Runs of instructions and of engine steps, and the pseudo-instructions of spec/30_encoding.md R83, each a
fixed expansion into commands. -/

namespace Sys2Proof.Machine

/-- Instructions one after the other, stopping at the first that answers no next state (R60). -/
def runInstrs : List Instr → State → Host.Outcome State Fault Refusal
  | [], s => .next s
  | i :: is, s =>
    match exec i s with
    | .next t => runInstrs is t
    | .fault r => .fault r
    | .refused r => .refused r

/-- `k` steps of the receive engine with no other agent between them (R84's `RXE`). -/
def rxeSteps (k : Nat) (s : State) : Host.Outcome State Fault Refusal := runInstrs (List.replicate k .rxeStep) s

/-- R83: `TXFRAME b0, …, bk`. -/
def txframe (bytes : List Byte) : List Instr := [.txbclr] ++ bytes.map .txbpush ++ [.txsend]

/-- R83: `CKSEQ b0, …, bk`. -/
def ckseq (bytes : List Byte) : List Instr := [.ckclr] ++ bytes.map .ckadd

/-- R83: `READ nb` or `READ blk` whose RDRES is issued `polls` times (it is repeated while it answers BUSY). -/
def readCommands (mode : RdMode) (polls : Nat) : List Instr := [.rdstart mode] ++ List.replicate polls .rdres

/-- R83: the part of `BITMAP` for one table: FLDAPPLY and the eight FORDs. -/
def applyAndReadTable (table j : Byte) : List Instr :=
  [.fldapply table j] ++ (List.range 8).map fun i => .ford (BitVec.ofNat 3 i)

/-- R83: `BITMAP start, count, t0, …`. -/
def bitmapCommands (start count : Byte) (tables : List Byte) : List Instr :=
  [.bmload start count] ++ (tables.mapIdx fun j t => applyAndReadTable t (BitVec.ofNat 8 j)).flatten

/-- R84: `LINE b0 b1 …`: bytes the line delivers one after the other. -/
def lineBytes (bytes : List Byte) : List Instr := bytes.map .lineRx

end Sys2Proof.Machine
end

