-- ==== Sys2Proof/Safety.lean ====
section
/-! DEFINITION. What the claims are stated in: the invariant of the block's state (spec/10_state.md R21 to R35, R41;
spec/42_frame_reader.md R130 to R139, R144), the answer of a command, and the classes of instructions that whole-machine
rules speak of. -/

namespace Sys2Proof.Machine

/-! ## The invariant -/

/-- R22, R24, R26, R27, R135, R136: what each reader state holds. -/
abbrev State.readerOk (s : State) : Prop :=
  (s.rdSt = .idle → s.rdEsc = false ∧ s.rdRem = 0#9 ∧ s.fb = []) ∧
  (s.rdSt = .waitDelim → s.rdEsc = false ∧ s.rdRem = 0#9 ∧ s.fb = []) ∧
  (s.rdSt = .readLen → s.rdRem = 0#9 ∧ s.fb = []) ∧
  (s.rdSt = .readBody →
    0 < s.rdRem.toNat ∧ s.fb.head? = some s.rdLen ∧ s.fb.length + s.rdRem.toNat = s.rdLen.toNat + 3)

/-- R28, R144, R265, R266: a message is held exactly when no read is in progress and the last one ended OK; it is then
`MSG[0] + 1` bytes long, and RD_RES says so. -/
abbrev State.messageOk (s : State) : Prop :=
  (s.rdSt = .idle ∧ s.rdRes.code = .ok →
    s.msg.length = (s.msg.headD 0).toNat + 1 ∧ s.rdRes.info.toNat = s.msg.length) ∧
  (¬(s.rdSt = .idle ∧ s.rdRes.code = .ok) → s.msg = [])

/-- R41: the codes that RD_RES takes and the layout of its info. -/
abbrev State.resultOk (s : State) : Prop :=
  s.rdRes.code ∈ [.ok, .noMessage, .noResult, .feUnexpected, .feBadesc, .feTruncated, Status.ckerr] ∧
  (s.rdRes.code = .ok → 1 ≤ s.rdRes.info.toNat ∧ s.rdRes.info.toNat ≤ 256) ∧
  (s.rdRes.code = .noMessage ∨ s.rdRes.code = .noResult → s.rdRes.info = 0) ∧
  (s.rdRes.code = .feUnexpected → s.rdRes.info.toNat < 256 ∧ s.rdRes.info ≠ 0x7E#24) ∧
  (s.rdRes.code = .feBadesc → s.rdRes.info.toNat < 256 ∧ s.rdRes.info ≠ 0x5E#24 ∧ s.rdRes.info ≠ 0x5D#24) ∧
  (s.rdRes.code = .feTruncated →
    s.rdRes.info.extractLsb' 17 7 = 0#7 ∧ s.rdRes.info.extractLsb' 9 7 = 0#7 ∧
      (s.rdRes.info.extractLsb' 0 9).toNat ≤ 257) ∧
  (s.rdRes.code = .ckerr → s.rdRes.info.toNat < 65536)

/-- R34, R189: a valid field output is a table of the ROM applied to an entry of the bitmap. -/
abbrev State.fieldOutputOk (s : State) : Prop :=
  s.foValid = true → ∃ t ∈ s.cfg.ft, ∃ b ∈ s.bm, s.fo = applyFieldTable t b

/-- The invariant of every state that a run reaches. -/
structure State.Inv (s : State) : Prop where
  /-- R21 -/
  fifo    : s.rxf.length ≤ s.cfg.rxDepth
  reader  : s.readerOk
  message : s.messageOk
  result  : s.resultOk
  /-- R30, R112 -/
  sums    : s.ckS1.toNat ≤ 254 ∧ s.ckS2.toNat ≤ 254
  /-- R31 -/
  build   : s.txb.length ≤ 256
  /-- R33 -/
  bitmap  : s.bm.length ≤ 255
  fields  : s.fieldOutputOk

/-! ## Answers -/

/-- A command step that changes nothing but the response: the word with status code `st` and data `d` (R72). -/
def answers (s : State) (st : Byte) (d : BitVec 24) : Host.Outcome State Fault Refusal :=
  .next { s with resp := some (st ++ d) }

/-- The host issues a command word: one step in which it is the host's turn (R20, R70). -/
def issue (w : Word) (s : State) : Host.Outcome State Fault Refusal := step (s.offer (.host w))

/-- The response word of a next state (R72). -/
def responseOf : Host.Outcome State Fault Refusal → Option Word
  | .next t => t.resp
  | .fault _ => none
  | .refused _ => none

/-! ## Classes of instructions -/

/-- R59: the idempotent commands. -/
def idempotentCommand : Instr → Bool
  | .nop | .status | .ckrd | .ckvfy _ _ | .rdres | .msgrd _ | .msglen | .bmload _ _ | .bmrd _ | .fldapply _ _ | .ford _
  | .typesplit | .fplookup _ _ _ | .pindec _ _ | .esc _ | .unesc _ _ | .ckclr | .txbclr | .clrovr | .flush
  | .reset => true
  | .ckadd _ | .txbpush _ | .txsend | .rdstart _ | .wireDelim | .wireUnexpected _ | .wireEsc7E | .wireEsc7D
  | .wireBadesc _ | .wireLiteral _ | .lineRx _ | .timeout | .rxeStep => false

end Sys2Proof.Machine
end

