-- ==== Sys2Proof/Certificates/Slice0/Obligations.lean ====
section
/-! DEFINITION. The statements for the provers, one `def` each, listed in OBLIGATIONS.json. A command's statement says what
exec answers for every state, and what the host's word gives for EVERY value of its operand fields: the command where the reserved fields are zero, ILLEGAL_OPERAND (0x41) where they are not. `answers s st d` is the
state `s` with the response word `{st, d}` and nothing else changed; `{ s with … }` lists everything else that changes. -/

open Sys2Proof Sys2Proof.Machine

/-! ## Decoding, encoding and the step -/

/-- Decoding the code of a well-formed instruction gives it back (R70, R74, R77). -/
def Obligations.DecodeOfEncodeGivesTheInstruction : Prop :=
  ∀ i : Instr, i.wf = true → decode (encode i) = .ok i

/-- Every code that decodes is the code of exactly that instruction, which is well formed (R71, R74, R77). -/
def Obligations.EncodeOfDecodeGivesTheCode : Prop :=
  ∀ (c : Code) (i : Instr), decode c = .ok i → encode i = c ∧ i.wf = true

/-- Words written out from the opcode map R74 and the examples of R82 decode to the instructions they stand for. -/
def Obligations.WordsOfTheSpecDecode : Prop :=
  decodeCommand 0x21BD0000#32 = .ok (.ckadd 0xBD#8) ∧ decodeCommand 0x50020300#32 = .ok (.bmload 2 3) ∧
  decodeCommand 0x550A11C0#32 = .ok (.fplookup 0x0A#8 0x11#8 0xC0#8) ∧ decodeCommand 0x30010000#32 = .ok (.rdstart .block) ∧
  decodeCommand 0x117D5E00#32 = .ok (.unesc 0x7D#8 0x5E#8) ∧ decodeCommand 0x41040000#32 = .ok (.txbpush 0x04#8) ∧
  decodeCommand 0x00000000#32 = .ok .nop ∧ decodeCommand 0x53070000#32 = .ok (.ford 7) ∧
  decodeSymbol .inFrame [0x7D#8, 0x5D#8] = .ok .wireEsc7D ∧ decodeSymbol .waitDelim [0x7E#8] = .ok .wireDelim

/-- The opcode map as opcode_table.json gives it: the opcode byte, and the word's bits that are reserved. -/
def Obligations.OpcodeMapDecidesEveryWord : Prop :=
  let rows : List (Byte × Word) :=
    [(0x00#8, 0x00FFFFFF#32), (0x01#8, 0x00FFFFFF#32), (0x02#8, 0x00FFFFFF#32), (0x03#8, 0x00FFFFFF#32), (0x04#8, 0x00FFFFFF#32),
     (0x10#8, 0x0000FFFF#32), (0x11#8, 0x000000FF#32), (0x20#8, 0x00FFFFFF#32), (0x21#8, 0x0000FFFF#32), (0x22#8, 0x00FFFFFF#32),
     (0x23#8, 0x000000FF#32), (0x30#8, 0x00FEFFFF#32), (0x31#8, 0x00FFFFFF#32), (0x32#8, 0x0000FFFF#32), (0x33#8, 0x00FFFFFF#32),
     (0x40#8, 0x00FFFFFF#32), (0x41#8, 0x0000FFFF#32), (0x42#8, 0x00FFFFFF#32), (0x50#8, 0x000000FF#32), (0x51#8, 0x0000FFFF#32),
     (0x52#8, 0x000000FF#32), (0x53#8, 0x00F8FFFF#32), (0x54#8, 0x00FFFFFF#32), (0x55#8, 0x00000000#32), (0x56#8, 0x000000FF#32)]
  ∀ (w : Word) (s : State),
    ((∀ r ∈ rows, w.extractLsb' 24 8 ≠ r.1) → issue w s = answers s 0x40#8 0#24) ∧
    (∀ r ∈ rows, w.extractLsb' 24 8 = r.1 → w &&& r.2 ≠ 0#32 → issue w s = answers s 0x41#8 0#24) ∧
    (∀ r ∈ rows, w.extractLsb' 24 8 = r.1 → w &&& r.2 = 0#32 →
      ∃ i, decodeCommand w = .ok i ∧ encode i = .turn (.host w) ∧ issue w s = exec i s)

/-- A step runs the instruction of the first turn on the state without that turn; with no turn listed the receive engine
runs where it is enabled, and otherwise no agent acts (R20; the model's choice, log entries 1 and 13). -/
def Obligations.StepRunsTheDecodedInstruction : Prop :=
  (∀ (s : State) (t : Turn) (rest : List Turn) (i : Instr), s.agenda = t :: rest → decodeTurn t = .ok i →
    step s = exec i { s with agenda := rest }) ∧
  (∀ s : State, s.agenda = [] → s.rxeEnabled = true → step s = exec .rxeStep s) ∧
  (∀ s : State, s.agenda = [] → s.rxeEnabled = false → step s = .refused .noTurn)

/-! ## System commands -/

/-- R220, R222, R224: NOP, FLUSH and CLROVR. -/
def Obligations.NopFlushAndClrovrDoTheirOneThing : Prop :=
  ∀ (a b c : Byte) (s : State),
    (exec .nop s = answers s 0x00#8 0#24 ∧
      exec .flush s = answers { s with rxf := [] } 0x00#8 0#24 ∧
      exec .clrovr s = answers { s with ovr := false } 0x00#8 0#24) ∧
    (issue (0x00#8 ++ a ++ b ++ c) s = if a = 0#8 ∧ b = 0#8 ∧ c = 0#8 then exec .nop s else answers s 0x41#8 0#24) ∧
    (issue (0x02#8 ++ a ++ b ++ c) s = if a = 0#8 ∧ b = 0#8 ∧ c = 0#8 then exec .flush s else answers s 0x41#8 0#24) ∧
    (issue (0x04#8 ++ a ++ b ++ c) s = if a = 0#8 ∧ b = 0#8 ∧ c = 0#8 then exec .clrovr s else answers s 0x41#8 0#24)

/-- R221: RESET gives every element of R21 to R35 but TXQ its reset value. -/
def Obligations.ResetRestoresEveryElementButTxq : Prop :=
  ∀ (a b c : Byte) (s : State),
    (exec .reset s =
      answers
        { s with
          rxf := [], rdSt := .idle, rdMode := .nonblock, rdEsc := false, rdLen := 0x00#8, rdRem := 0#9, fb := [], msg := [],
          rdRes := ⟨.noResult, 0#24⟩, ckS1 := 0#8, ckS2 := 0#8, txb := [], bm := [],
          fo := Vector.replicate 8 ⟨0x0000#16, false⟩, foValid := false, ovr := false }
        0x00#8 0#24) ∧
    (issue (0x01#8 ++ a ++ b ++ c) s = if a = 0#8 ∧ b = 0#8 ∧ c = 0#8 then exec .reset s else answers s 0x41#8 0#24)

/-- R260, R261: the power-on state; its STATUS view, which R40 derives; and what RESET leaves of it. The values of the
model's own fields in the last clause (an empty agenda, no response, the block's parameters) are the model's choice, log
entry 14. -/
def Obligations.PowerOnStateIsTheResetState : Prop :=
  State.reset.rxf = [] ∧ State.reset.rdSt = .idle ∧ State.reset.rdMode = .nonblock ∧ State.reset.rdEsc = false ∧
  State.reset.rdLen = 0x00#8 ∧ State.reset.rdRem = 0#9 ∧ State.reset.fb = [] ∧ State.reset.msg = [] ∧
  State.reset.rdRes = ⟨.noResult, 0#24⟩ ∧ State.reset.ckS1 = 0 ∧ State.reset.ckS2 = 0 ∧ State.reset.txb = [] ∧
  State.reset.txq = [] ∧ State.reset.bm = [] ∧ (∀ i : Fin 8, State.reset.fo[i] = ⟨0x0000#16, false⟩) ∧
  State.reset.foValid = false ∧ State.reset.ovr = false ∧ State.reset.statusView = 0x030000#24 ∧
  ∀ s t : State, exec .reset s = .next t →
    { t with txq := [], cfg := Config.block, agenda := [], resp := none } = State.reset ∧ t.txq = s.txq

/-- R223, R40: STATUS answers the view, each field where the table puts it. -/
def Obligations.StatusAnswersTheViewFieldByField : Prop :=
  ∀ (a b c : Byte) (s : State),
    (∃ d : BitVec 24, exec .status s = answers s 0x00#8 d ∧
      (d.getLsbD 0 = true ↔ s.rdSt ≠ .idle) ∧
      d.extractLsb' 1 2 = (match s.rdSt with | .idle => 0 | .waitDelim => 1 | .readLen => 2 | .readBody => 3) ∧
      (d.getLsbD 3 = true ↔ s.rdMode = .block) ∧
      d.getLsbD 4 = s.rdEsc ∧ d.getLsbD 5 = s.ovr ∧ d.getLsbD 6 = s.foValid ∧ d.getLsbD 7 = false ∧
      (d.extractLsb' 8 8).toNat = min s.rxf.length 255 ∧
      d.extractLsb' 16 8 = s.rdRes.code.code) ∧
    (issue (0x03#8 ++ a ++ b ++ c) s = if a = 0#8 ∧ b = 0#8 ∧ c = 0#8 then exec .status s else answers s 0x41#8 0#24)

/-! ## The escape codec -/

/-- R102: ESC. -/
def Obligations.EscAnswersTheEscapedByte : Prop :=
  ∀ (a b c : Byte) (s : State),
    (exec (.esc a) s =
      answers s 0x00#8 (if a = 0x7E#8 then 0x027D5E#24 else if a = 0x7D#8 then 0x027D5D#24 else 0x01#8 ++ a ++ 0x00#8)) ∧
    (issue (0x10#8 ++ a ++ b ++ c) s = if b = 0#8 ∧ c = 0#8 then exec (.esc a) s else answers s 0x41#8 0#24)

/-- R103: UNESC. -/
def Obligations.UnescAnswersTheDecodedByteOrBadEscape : Prop :=
  ∀ (b0 b1 c : Byte) (s : State),
    (exec (.unesc b0 b1) s =
      if b0 ≠ 0x7D#8 then answers s 0x00#8 (0x01#8 ++ 0x00#8 ++ b0)
      else if b1 = 0x5E#8 then answers s 0x00#8 0x02007E#24
      else if b1 = 0x5D#8 then answers s 0x00#8 0x02007D#24
      else answers s 0x11#8 (b1.setWidth 24)) ∧
    (issue (0x11#8 ++ b0 ++ b1 ++ c) s = if c = 0#8 then exec (.unesc b0 b1) s else answers s 0x41#8 0#24)

/-- R100: escape replaces every 0x7E and 0x7D in place and leaves every other byte. -/
def Obligations.EscapeReplacesEachSpecialByte : Prop :=
  ∀ s : List Byte,
    escape s = (s.map fun b => if b = 0x7E#8 then [0x7D#8, 0x5E#8] else if b = 0x7D#8 then [0x7D#8, 0x5D#8] else [b]).flatten

/-- R101: unescape, equation by equation. -/
def Obligations.UnescapeIsTheInverseOrTheFirstError : Prop :=
  unescape [] = .ok [] ∧ unescape [0x7D#8] = .error .truncated ∧
  (∀ (s r : List Byte), unescape s = .ok r →
    unescape (0x7D#8 :: 0x5E#8 :: s) = .ok (0x7E#8 :: r) ∧ unescape (0x7D#8 :: 0x5D#8 :: s) = .ok (0x7D#8 :: r) ∧
    ∀ b : Byte, b ≠ 0x7D#8 → unescape (b :: s) = .ok (b :: r)) ∧
  (∀ (s : List Byte) (e : UnescapeError), unescape s = .error e →
    unescape (0x7D#8 :: 0x5E#8 :: s) = .error e ∧ unescape (0x7D#8 :: 0x5D#8 :: s) = .error e ∧
    ∀ b : Byte, b ≠ 0x7D#8 → unescape (b :: s) = .error e) ∧
  (∀ (x : Byte) (s : List Byte), x ≠ 0x5E#8 → x ≠ 0x5D#8 → unescape (0x7D#8 :: x :: s) = .error (.badEsc x))

/-- R104: the laws of the codec. -/
def Obligations.CodecRoundTripsAndEscapedTextHasNoDelimiter : Prop :=
  (∀ s : List Byte, unescape (escape s) = .ok s) ∧
  (∀ s : List Byte, (0x7E#8 : Byte) ∉ escape s) ∧
  (∀ (s p q : List Byte), escape s = p ++ 0x7D#8 :: q → q.head? = some 0x5E#8 ∨ q.head? = some 0x5D#8) ∧
  (∀ s : List Byte, (escape s).length = s.length + (s.filter fun b => b = 0x7E#8 ∨ b = 0x7D#8).length) ∧
  (∀ s t : List Byte, escape (s ++ t) = escape s ++ escape t) ∧
  (∀ s t : List Byte, escape s = escape t → s = t)

/-! ## The checksum -/

/-- R113, R115: CKCLR and CKRD. -/
def Obligations.CkclrClearsAndCkrdReadsTheAccumulator : Prop :=
  ∀ (a b c : Byte) (s : State),
    exec .ckclr s = answers { s with ckS1 := 0#8, ckS2 := 0#8 } 0x00#8 0#24 ∧
    exec .ckrd s = answers s 0x00#8 (0x00#8 ++ s.ckS2 ++ s.ckS1) ∧
    (issue (0x20#8 ++ a ++ b ++ c) s = if a = 0#8 ∧ b = 0#8 ∧ c = 0#8 then exec .ckclr s else answers s 0x41#8 0#24) ∧
    (issue (0x22#8 ++ a ++ b ++ c) s = if a = 0#8 ∧ b = 0#8 ∧ c = 0#8 then exec .ckrd s else answers s 0x41#8 0#24)

/-- R114, R110: CKADD adds the byte to sum1 and the new sum1 to sum2, both modulo 255. -/
def Obligations.CkaddAccumulatesModulo255 : Prop :=
  ∀ (a b c : Byte) (s : State),
    (∃ s1 s2 : Byte, s1.toNat = (s.ckS1.toNat + a.toNat) % 255 ∧ s2.toNat = (s.ckS2.toNat + s1.toNat) % 255 ∧
      exec (.ckadd a) s = answers { s with ckS1 := s1, ckS2 := s2 } 0x00#8 (0x00#8 ++ s2 ++ s1)) ∧
    (issue (0x21#8 ++ a ++ b ++ c) s = if b = 0#8 ∧ c = 0#8 then exec (.ckadd a) s else answers s 0x41#8 0#24)

/-- R116: CKVFY. -/
def Obligations.CkvfyComparesBothSums : Prop :=
  ∀ (lo hi c : Byte) (s : State),
    (exec (.ckvfy lo hi) s =
      if s.ckS1 = lo ∧ s.ckS2 = hi then answers s 0x00#8 (0x01#8 ++ s.ckS2 ++ s.ckS1)
      else answers s 0x20#8 (0x00#8 ++ s.ckS2 ++ s.ckS1)) ∧
    (issue (0x23#8 ++ lo ++ hi ++ c) s = if c = 0#8 then exec (.ckvfy lo hi) s else answers s 0x41#8 0#24)

/-- R110, R83: CKSEQ over any bytes leaves the Fletcher sums of those bytes in the accumulator, and nothing else changed
but the response, which is the last CKADD's. -/
def Obligations.CkseqComputesTheFletcherSums : Prop :=
  ∀ (bytes : List Byte) (s : State),
    runInstrs (ckseq bytes) s =
      answers { s with ckS1 := (fletcher bytes).1, ckS2 := (fletcher bytes).2 } 0x00#8
        (0x00#8 ++ (fletcher bytes).2 ++ (fletcher bytes).1)

/-- R110, R112: the sums of a longer sequence, each by at most one conditional subtraction of 255. -/
def Obligations.FletcherAddsWithOneConditionalSubtraction : Prop :=
  fletcher [] = (0#8, 0#8) ∧
  ∀ (s : List Byte) (b : Byte),
    let s1 := (fletcher s).1.toNat + b.toNat
    let s1' := if s1 ≥ 255 then s1 - 255 else s1
    let s2 := (fletcher s).2.toNat + s1'
    let s2' := if s2 ≥ 255 then s2 - 255 else s2
    (fletcher (s ++ [b])).1.toNat = s1' ∧ (fletcher (s ++ [b])).2.toNat = s2' ∧ s1' ≤ 254 ∧ s2' ≤ 254

/-- R117 items 1 and 3: 0xFF counts as 0x00, anywhere in the sequence. -/
def Obligations.FletcherCannotTellFFFrom00 : Prop :=
  (∀ s t : List Byte, fletcher (s ++ [0xFF#8] ++ t) = fletcher (s ++ [0x00#8] ++ t)) ∧
  fletcher [0x00#8] = (0#8, 0#8) ∧ fletcher [0xFF#8] = (0#8, 0#8)

/-- R117 items 2 and 4: any other change of one byte changes sum1, and a sum is never 0xFF. -/
def Obligations.FletcherDetectsEveryOtherByteChange : Prop :=
  (∀ (s t : List Byte) (b b' : Byte), b ≠ b' → ¬(b = 0x00#8 ∧ b' = 0xFF#8) → ¬(b = 0xFF#8 ∧ b' = 0x00#8) →
    (fletcher (s ++ [b] ++ t)).1 ≠ (fletcher (s ++ [b'] ++ t)).1) ∧
  (∀ s : List Byte, (fletcher s).1 ≠ 0xFF#8 ∧ (fletcher s).2 ≠ 0xFF#8)

/-! ## The frame reader's commands -/

/-- R131: RDSTART in its three outcomes, and its reserved bits. -/
def Obligations.RdstartStartsOneRead : Prop :=
  ∀ (m : RdMode) (a b c : Byte) (s : State),
    (exec (.rdstart m) s =
      if s.rdSt ≠ .idle then answers s 0x02#8 0#24
      else if m = .nonblock ∧ s.rxf = [] then
        answers { s with msg := [], rdMode := m, rdRes := ⟨.noMessage, 0#24⟩ } 0x01#8 0#24
      else
        answers
          { s with msg := [], rdMode := m, fb := [], rdEsc := false, rdLen := 0#8, rdRem := 0#9, rdSt := .waitDelim }
          0x00#8 0#24) ∧
    (issue (0x30#8 ++ a ++ b ++ c) s =
      if b = 0#8 ∧ c = 0#8 ∧ a = 0#8 then exec (.rdstart .nonblock) s
      else if b = 0#8 ∧ c = 0#8 ∧ a = 1#8 then exec (.rdstart .block) s
      else answers s 0x41#8 0#24)

/-- R142, R73: RDRES answers BUSY during a read and the recorded outcome, with its code's number, otherwise. -/
def Obligations.RdresAnswersTheRecordedOutcome : Prop :=
  ∀ (a b c : Byte) (s : State),
    (exec .rdres s =
      if s.rdSt ≠ .idle then answers s 0x02#8 0#24
      else
        answers s
          (match s.rdRes.code with
           | .ok => 0x00#8 | .noMessage => 0x01#8 | .busy => 0x02#8 | .noResult => 0x03#8 | .feUnexpected => 0x10#8
           | .feBadesc => 0x11#8 | .feTruncated => 0x12#8 | .ckerr => 0x20#8 | .fcm => 0x30#8 | .cfgerr => 0x31#8
           | .ambiguous => 0x32#8 | .illegalCommand => 0x40#8 | .illegalOperand => 0x41#8 | .txRefused => 0x50#8)
          s.rdRes.info) ∧
    (issue (0x31#8 ++ a ++ b ++ c) s = if a = 0#8 ∧ b = 0#8 ∧ c = 0#8 then exec .rdres s else answers s 0x41#8 0#24)

/-- R143: MSGRD. -/
def Obligations.MsgrdReadsTheIndexedByteOrFcm : Prop :=
  ∀ (a b c : Byte) (s : State),
    (exec (.msgrd a) s =
      if h : a.toNat < s.msg.length then answers s 0x00#8 (0x0000#16 ++ s.msg[a.toNat]) else answers s 0x30#8 0#24) ∧
    (issue (0x32#8 ++ a ++ b ++ c) s = if b = 0#8 ∧ c = 0#8 then exec (.msgrd a) s else answers s 0x41#8 0#24)

/-- R144: MSGLEN; under the invariant the length is 0, or `MSG[0] + 1`, 1 to 256. -/
def Obligations.MsglenAnswersTheMessageLength : Prop :=
  ∀ (a b c : Byte) (s : State),
    exec .msglen s = answers s 0x00#8 (BitVec.ofNat 24 s.msg.length) ∧
    (issue (0x33#8 ++ a ++ b ++ c) s = if a = 0#8 ∧ b = 0#8 ∧ c = 0#8 then exec .msglen s else answers s 0x41#8 0#24) ∧
    (s.Inv → s.msg ≠ [] →
      s.msg.length = (s.msg.headD 0).toNat + 1 ∧ 1 ≤ s.msg.length ∧ s.msg.length ≤ 256)

/-! ## The receive engine, the line and the wire -/

/-- R132, R43: when the receive engine has a step; where it has none, RXE_STEP is no step of the block, which the model
says by a refusal (log entry 8). -/
def Obligations.RxeStepsExactlyWhereEnabled : Prop :=
  ∀ s : State,
    (s.rxeEnabled = true ↔
      s.rdSt ≠ .idle ∧ (s.rxf ≠ [] ∨ (s.rdSt = .waitDelim ∧ s.rdMode = .nonblock))) ∧
    (s.rxeEnabled = false → exec .rxeStep s = .refused .stepNotEnabled) ∧
    (s.rxeEnabled = true → s.Inv → ∃ t, exec .rxeStep s = .next t)

/-- R133: the engine's step in WAIT_DELIM, in its three cases. -/
def Obligations.RxeInWaitDelimTakesOnlyTheDelimiter : Prop :=
  ∀ s : State, s.rdSt = .waitDelim →
    (s.rxf = [] → s.rdMode = .nonblock →
      exec .rxeStep s =
        .next { s with rdSt := .idle, rdEsc := false, rdRem := 0#9, rdRes := ⟨.noMessage, 0#24⟩, resp := none }) ∧
    (∀ rest : List Byte, s.rxf = 0x7E#8 :: rest →
      exec .rxeStep s = .next { s with rxf := rest, fb := [], rdEsc := false, rdSt := .readLen, resp := none }) ∧
    (∀ (b : Byte) (rest : List Byte), b ≠ 0x7E#8 → s.rxf = b :: rest →
      exec .rxeStep s =
        .next
          { s with
            rxf := [], fb := [], rdEsc := false, rdRem := 0#9, rdSt := .idle,
            rdRes := ⟨.feUnexpected, b.setWidth 24⟩, resp := none })

/-- R134: inside a frame, the first byte of an escape sets RD_ESC, and a bad second byte is FE_BADESC with a flush. -/
def Obligations.RxeInFrameOpensEscapesAndRejectsBadOnes : Prop :=
  ∀ (s : State) (b : Byte) (rest : List Byte), s.rdSt = .readLen ∨ s.rdSt = .readBody → s.rxf = b :: rest →
    (s.rdEsc = false → b = 0x7D#8 → exec .rxeStep s = .next { s with rxf := rest, rdEsc := true, resp := none }) ∧
    (s.rdEsc = true → b ≠ 0x5E#8 → b ≠ 0x5D#8 →
      exec .rxeStep s =
        .next
          { s with
            rxf := [], fb := [], rdEsc := false, rdRem := 0#9, rdSt := .idle,
            rdRes := ⟨.feBadesc, b.setWidth 24⟩, resp := none })

/-- R134 to R137: the byte `d` that the next byte of RXF delivers inside a frame (itself, or 0x7E or 0x7D as the second
byte of an escape) becomes the length byte in READ_LEN; in READ_BODY it is appended to FB, and as the last one it completes
the frame, which is judged against its last two bytes. -/
def Obligations.RxeInFrameAcceptsTheDecodedByte : Prop :=
  ∀ (s : State) (b d : Byte) (rest : List Byte), s.rxf = b :: rest →
    (s.rdEsc = false ∧ b ≠ 0x7D#8 ∧ d = b) ∨ (s.rdEsc = true ∧ b = 0x5E#8 ∧ d = 0x7E#8) ∨
      (s.rdEsc = true ∧ b = 0x5D#8 ∧ d = 0x7D#8) →
    (s.rdSt = .readLen →
      exec .rxeStep s =
        .next
          { s with
            rxf := rest, rdEsc := false, rdLen := d, fb := [d], rdRem := BitVec.ofNat 9 (d.toNat + 2),
            rdSt := .readBody, resp := none }) ∧
    (s.rdSt = .readBody → 2 ≤ s.rdRem.toNat →
      exec .rxeStep s =
        .next
          { s with rxf := rest, rdEsc := false, fb := s.fb ++ [d], rdRem := s.rdRem - 1#9, resp := none }) ∧
    (∀ (body : List Byte) (lo : Byte), s.rdSt = .readBody → s.rdRem = 1#9 → s.fb = body ++ [lo] →
      exec .rxeStep s =
        if fletcher body = (lo, d) then
          .next
            { s with
              rxf := rest, rdEsc := false, fb := [], rdRem := 0#9, rdSt := .idle, msg := body,
              rdRes := ⟨.ok, BitVec.ofNat 24 body.length⟩, resp := none }
        else
          .next
            { s with
              rxf := rest, rdEsc := false, fb := [], rdRem := 0#9, rdSt := .idle,
              rdRes := ⟨.ckerr, 0x00#8 ++ d ++ lo⟩, resp := none })

/-- R77: the delimiter, the unexpected byte and the bad escape, each where the reader is at that symbol.
A wire symbol's step is the one that completes it: the model's choice, log entry 9. -/
def Obligations.WireDelimiterAndErrorSymbolsComplete : Prop :=
  ∀ (s : State) (x : Byte) (rest : List Byte),
    (s.rdSt = .waitDelim → s.rxf = 0x7E#8 :: rest →
      exec .wireDelim s = .next { s with rxf := rest, fb := [], rdEsc := false, rdSt := .readLen, resp := none }) ∧
    (s.rdSt = .waitDelim → s.rxf = x :: rest → x ≠ 0x7E#8 →
      exec (.wireUnexpected x) s =
        .next
          { s with
            rxf := [], fb := [], rdEsc := false, rdRem := 0#9, rdSt := .idle,
            rdRes := ⟨.feUnexpected, x.setWidth 24⟩, resp := none }) ∧
    (s.rdSt = .readLen ∨ s.rdSt = .readBody → s.rdEsc = true → s.rxf = x :: rest → x ≠ 0x5E#8 → x ≠ 0x5D#8 →
      exec (.wireBadesc x) s =
        .next
          { s with
            rxf := [], fb := [], rdEsc := false, rdRem := 0#9, rdSt := .idle,
            rdRes := ⟨.feBadesc, x.setWidth 24⟩, resp := none })

/-- R77, R135, R136: the three symbols that deliver a byte, in READ_LEN, in READ_BODY before the last byte, and at the
last byte, where the frame is judged (R137).
A wire symbol's step is the one that completes it: the model's choice, log entry 9. -/
def Obligations.WireDataSymbolsDeliverTheirByte : Prop :=
  ∀ (s : State) (i : Instr) (b d : Byte) (rest : List Byte), s.rxf = b :: rest →
    (s.rdEsc = false ∧ b ≠ 0x7D#8 ∧ d = b ∧ i = .wireLiteral b) ∨
      (s.rdEsc = true ∧ b = 0x5E#8 ∧ d = 0x7E#8 ∧ i = .wireEsc7E) ∨
      (s.rdEsc = true ∧ b = 0x5D#8 ∧ d = 0x7D#8 ∧ i = .wireEsc7D) →
    (s.rdSt = .readLen →
      exec i s =
        .next
          { s with
            rxf := rest, rdEsc := false, rdLen := d, fb := [d], rdRem := BitVec.ofNat 9 (d.toNat + 2),
            rdSt := .readBody, resp := none }) ∧
    (s.rdSt = .readBody → 2 ≤ s.rdRem.toNat →
      exec i s =
        .next { s with rxf := rest, rdEsc := false, fb := s.fb ++ [d], rdRem := s.rdRem - 1#9, resp := none }) ∧
    (∀ (body : List Byte) (lo : Byte), s.rdSt = .readBody → s.rdRem = 1#9 → s.fb = body ++ [lo] →
      exec i s =
        if fletcher body = (lo, d) then
          .next
            { s with
              rxf := rest, rdEsc := false, fb := [], rdRem := 0#9, rdSt := .idle, msg := body,
              rdRes := ⟨.ok, BitVec.ofNat 24 body.length⟩, resp := none }
        else
          .next
            { s with
              rxf := rest, rdEsc := false, fb := [], rdRem := 0#9, rdSt := .idle,
              rdRes := ⟨.ckerr, 0x00#8 ++ d ++ lo⟩, resp := none })

/-- R77, R132: an engine step on a byte that completes a wire symbol is exactly that symbol's meaning, and a byte that
completes none is the first byte of an escape.
A wire symbol's step is the one that completes it: the model's choice, log entry 9. -/
def Obligations.RxeStepIsTheWireSymbolItCompletes : Prop :=
  ∀ s : State, s.rdSt ≠ .idle → s.rxf ≠ [] →
    (∃ i : Instr, s.symbolNext = some i ∧ i.wf = true ∧ exec .rxeStep s = exec i s) ∨
    (s.symbolNext = none ∧ s.rdEsc = false ∧ s.rxf.head? = some 0x7D#8 ∧
      exec .rxeStep s = .next { s with rxf := s.rxf.tail, rdEsc := true, resp := none })

/-- R140: LINE_RX pushes the byte, or loses it and sets OVR. -/
def Obligations.LineRxPushesOrSetsOverrun : Prop :=
  ∀ (b : Byte) (s : State),
    (s.rxf.length < s.cfg.rxDepth → exec (.lineRx b) s = .next { s with rxf := s.rxf ++ [b], resp := none }) ∧
    (s.cfg.rxDepth ≤ s.rxf.length → exec (.lineRx b) s = .next { s with ovr := true, resp := none })

/-- R141: TIMEOUT in the two situations in which a read waits for the line: no message before the delimiter, a truncated
frame after it. -/
def Obligations.TimeoutEndsTheWaitingRead : Prop :=
  ∀ s : State,
    (s.rxf = [] → s.rdSt = .waitDelim → s.rdMode = .block →
      exec .timeout s =
        .next { s with rdSt := .idle, rdEsc := false, rdRem := 0#9, rdRes := ⟨.noMessage, 0#24⟩, resp := none }) ∧
    (s.rxf = [] → s.rdSt = .readLen ∨ s.rdSt = .readBody →
      exec .timeout s =
        .next
          { s with
            rxf := [], fb := [], rdEsc := false, rdRem := 0#9, rdSt := .idle,
            rdRes := ⟨.feTruncated, 0#7 ++ BitVec.ofBool s.rdEsc ++ 0#7 ++ BitVec.ofNat 9 s.fb.length⟩,
            resp := none })

/-- R43: in every state with a read in progress and RXF empty, exactly one of RXE and TIMEOUT is enabled; with bytes in
RXF the engine is, and in IDLE neither. -/
def Obligations.ExactlyOneOfRxeAndTimeoutWhileReading : Prop :=
  ∀ s : State,
    (s.rdSt ≠ .idle → s.rxf = [] → (s.rxeEnabled = true ↔ s.timeoutEnabled = false)) ∧
    (s.rdSt ≠ .idle → s.rxf ≠ [] → s.rxeEnabled = true ∧ s.timeoutEnabled = false) ∧
    (s.rdSt = .idle → s.rxeEnabled = false ∧ s.timeoutEnabled = false)

/-- R140, R61: bytes the line delivers enter RXF in order, as many as there is room for; a lost byte sets OVR. -/
def Obligations.LineBytesEnterInOrderUntilFull : Prop :=
  ∀ (bytes : List Byte) (s : State), bytes ≠ [] → s.rxf.length ≤ s.cfg.rxDepth →
    runInstrs (lineBytes bytes) s =
      .next
        { s with
          rxf := (s.rxf ++ bytes).take s.cfg.rxDepth,
          ovr := s.ovr || decide (s.cfg.rxDepth < s.rxf.length + bytes.length),
          resp := none }

/-- R44, R132: the engine, left alone, comes to rest: after at most one step for each byte in RXF and one more. -/
def Obligations.RxeComesToRest : Prop :=
  ∀ s : State, s.Inv → ∃ (k : Nat) (t : State), k ≤ s.rxf.length + 1 ∧ rxeSteps k s = .next t ∧ t.rxeEnabled = false

/-- R75, R133 to R137, R172: a whole frame at the head of RXF, read by the engine alone, gives back exactly the bytes it
was built from, as the message, and takes no byte beyond the frame. -/
def Obligations.ReadingAFrameGivesBackItsBytes : Prop :=
  ∀ (s : State) (l : Byte) (m rest : List Byte), s.Inv → s.rdSt = .waitDelim → m.length = l.toNat →
    s.rxf = frame (l :: m) ++ rest →
    rxeSteps (frame (l :: m)).length s =
      .next
        { s with
          rxf := rest, rdSt := .idle, rdEsc := false, rdLen := l, rdRem := 0#9, fb := [], msg := l :: m,
          rdRes := ⟨.ok, BitVec.ofNat 24 (l.toNat + 1)⟩, resp := none }

/-! ## The frame writer -/

/-- R170, R171: TXBCLR and TXBPUSH. -/
def Obligations.TxbclrAndTxbpushBuildTheBuffer : Prop :=
  ∀ (a b c : Byte) (s : State),
    exec .txbclr s = answers { s with txb := [] } 0x00#8 0#24 ∧
    (exec (.txbpush a) s =
      if s.txb.length = 256 then answers s 0x50#8 256#24
      else answers { s with txb := s.txb ++ [a] } 0x00#8 (BitVec.ofNat 24 (s.txb.length + 1))) ∧
    (issue (0x40#8 ++ a ++ b ++ c) s = if a = 0#8 ∧ b = 0#8 ∧ c = 0#8 then exec .txbclr s else answers s 0x41#8 0#24) ∧
    (issue (0x41#8 ++ a ++ b ++ c) s = if b = 0#8 ∧ c = 0#8 then exec (.txbpush a) s else answers s 0x41#8 0#24)

/-- R172: TXSEND appends the delimiter and the escaped bytes and checksum to TXQ and empties TXB; 4 to 517 wire bytes. -/
def Obligations.TxsendAppendsTheFrame : Prop :=
  ∀ (a b c : Byte) (s : State),
    (s.txb = [] → exec .txsend s = answers s 0x50#8 0#24) ∧
    (s.txb ≠ [] →
      let w : List Byte := [0x7E#8] ++ escape (s.txb ++ [(fletcher s.txb).1, (fletcher s.txb).2])
      exec .txsend s = answers { s with txq := s.txq ++ w, txb := [] } 0x00#8 (BitVec.ofNat 24 w.length) ∧
      4 ≤ w.length ∧ (s.txb.length ≤ 256 → w.length ≤ 517)) ∧
    (issue (0x42#8 ++ a ++ b ++ c) s = if a = 0#8 ∧ b = 0#8 ∧ c = 0#8 then exec .txsend s else answers s 0x41#8 0#24)

/-- R83, R172: TXFRAME of 1 to 256 bytes puts exactly their frame on the transmit stream. -/
def Obligations.TxframeTransmitsTheFrameOfItsBytes : Prop :=
  ∀ (bytes : List Byte) (s : State), bytes ≠ [] → bytes.length ≤ 256 →
    runInstrs (txframe bytes) s =
      answers { s with txb := [], txq := s.txq ++ frame bytes } 0x00#8 (BitVec.ofNat 24 (frame bytes).length)

/-- R80: the wire forms of the control replies ACK, NAK and CAN. -/
def Obligations.ControlRepliesOnTheWire : Prop :=
  frame [0x01#8, 0x1D#8] = [0x7E#8, 0x01#8, 0x1D#8, 0x1E#8, 0x1F#8] ∧
  frame [0x01#8, 0x1E#8] = [0x7E#8, 0x01#8, 0x1E#8, 0x1F#8, 0x20#8] ∧
  frame [0x01#8, 0x1F#8] = [0x7E#8, 0x01#8, 0x1F#8, 0x20#8, 0x21#8]

/-! ## The bitfield decoder -/

/-- R187, R185: BMLOAD. -/
def Obligations.BmloadLoadsTheRangeOrFails : Prop :=
  ∀ (start count c : Byte) (s : State),
    (exec (.bmload start count) s =
      if start.toNat + count.toNat ≤ s.msg.length then
        answers { s with foValid := false, bm := s.msg.extract start.toNat (start.toNat + count.toNat) } 0x00#8
          (0x0000#16 ++ count)
      else answers { s with foValid := false, bm := [] } 0x30#8 0#24) ∧
    (issue (0x50#8 ++ start ++ count ++ c) s = if c = 0#8 then exec (.bmload start count) s else answers s 0x41#8 0#24)

/-- R188: BMRD. -/
def Obligations.BmrdReadsTheBitmapEntryOrFcm : Prop :=
  ∀ (a b c : Byte) (s : State),
    (exec (.bmrd a) s =
      if h : a.toNat < s.bm.length then answers s 0x00#8 (0x0000#16 ++ s.bm[a.toNat]) else answers s 0x30#8 0#24) ∧
    (issue (0x51#8 ++ a ++ b ++ c) s = if b = 0#8 ∧ c = 0#8 then exec (.bmrd a) s else answers s 0x41#8 0#24)

/-- R189, R186: FLDAPPLY, the table number tested first; slot i takes bit 7 - i. -/
def Obligations.FldapplyZipsTheTableWithTheBits : Prop :=
  ∀ (t j c : Byte) (s : State),
    (s.cfg.ft.length ≤ t.toNat → exec (.fldapply t j) s = answers s 0x41#8 0#24) ∧
    (t.toNat < s.cfg.ft.length → s.bm.length ≤ j.toNat →
      exec (.fldapply t j) s = answers { s with foValid := false } 0x30#8 0#24) ∧
    (∀ (ht : t.toNat < s.cfg.ft.length) (hj : j.toNat < s.bm.length), ∃ fo : Vector FoEntry 8,
      exec (.fldapply t j) s =
        answers { s with fo := fo, foValid := true } 0x00#8 (0x00#8 ++ t ++ s.bm[j.toNat]) ∧
      ∀ i : Fin 8, fo[i] = ⟨(s.cfg.ft[t.toNat])[i], (s.bm[j.toNat]).getLsbD (7 - i.val)⟩) ∧
    (issue (0x52#8 ++ t ++ j ++ c) s = if c = 0#8 then exec (.fldapply t j) s else answers s 0x41#8 0#24)

/-- R191: FORD; an index of 8 or more has a reserved bit set. -/
def Obligations.FordReadsTheFieldOutputEntry : Prop :=
  ∀ (i : BitVec 3) (a b c : Byte) (s : State),
    (exec (.ford i) s =
      if s.foValid = true then
        answers s 0x00#8
          (0#7 ++ BitVec.ofBool (s.fo[i.toNat]'i.isLt).bit ++ (s.fo[i.toNat]'i.isLt).fid)
      else answers s 0x30#8 0#24) ∧
    (issue (0x53#8 ++ a ++ b ++ c) s =
      if a.toNat < 8 ∧ b = 0#8 ∧ c = 0#8 then exec (.ford (BitVec.ofNat 3 a.toNat)) s else answers s 0x41#8 0#24)

/-- R192, R78: TYPESPLIT: canonical type in D[13:8], SEL in D[1], ACK in D[0], every other bit 0. -/
def Obligations.TypesplitExtractsTheThreeFields : Prop :=
  ∀ (a b c : Byte) (s : State),
    (s.msg.length < 2 → exec .typesplit s = answers s 0x30#8 0#24) ∧
    (∀ h : 2 ≤ s.msg.length, ∃ d : BitVec 24,
      exec .typesplit s = answers s 0x00#8 d ∧
      d.toNat =
        (s.msg[1].toNat % 64) * 256 + (s.msg[1].toNat / 64 % 2) * 2 + s.msg[1].toNat / 128) ∧
    (issue (0x54#8 ++ a ++ b ++ c) s = if a = 0#8 ∧ b = 0#8 ∧ c = 0#8 then exec .typesplit s else answers s 0x41#8 0#24)

/-- R193, R55: FPLOOKUP, by the number of matching entries and of their distinct groups. -/
def Obligations.FplookupClassifiesByDistinctGroups : Prop :=
  ∀ (a b c : Byte) (s : State),
    let m := s.cfg.fpCatalog.filter fun e => e.pattern = (a ++ b ++ c : BitVec 24)
    let g := (m.map FpEntry.group).dedup
    let n : BitVec 6 := BitVec.ofNat 6 (min m.length 63)
    (m.length = 0 → exec (.fplookup a b c) s = answers s 0x00#8 0x00FFFF#24) ∧
    (∀ x, g = [x] → exec (.fplookup a b c) s = answers s 0x00#8 (0b01#2 ++ n ++ x)) ∧
    (2 ≤ g.length → exec (.fplookup a b c) s = answers s 0x32#8 (0b10#2 ++ n ++ 0xFFFF#16)) ∧
    issue (0x55#8 ++ a ++ b ++ c) s = exec (.fplookup a b c) s

/-- R194: PINDEC: the code length is tested before the message; the digits are nibbles, low nibble first. -/
def Obligations.PindecUnswapsTheNibbles : Prop :=
  ∀ (start n c : Byte) (s : State),
    (n ≠ 4#8 → n ≠ 6#8 → exec (.pindec start n) s = answers s 0x31#8 (0x0000#16 ++ n)) ∧
    (n = 4#8 ∨ n = 6#8 → s.msg.length < start.toNat + n.toNat / 2 → exec (.pindec start n) s = answers s 0x30#8 0#24) ∧
    (n = 4#8 ∨ n = 6#8 → start.toNat + n.toNat / 2 ≤ s.msg.length → ∃ d : BitVec 24,
      exec (.pindec start n) s = answers s 0x00#8 d ∧
      (∀ j : Nat, j < n.toNat / 2 → ∀ h : start.toNat + j < s.msg.length,
        d.extractLsb' (20 - 8 * j) 4 = (s.msg[start.toNat + j]).extractLsb' 0 4 ∧
        d.extractLsb' (16 - 8 * j) 4 = (s.msg[start.toNat + j]).extractLsb' 4 4) ∧
      (n = 4#8 → d.extractLsb' 0 8 = 0#8)) ∧
    (issue (0x56#8 ++ start ++ n ++ c) s = if c = 0#8 then exec (.pindec start n) s else answers s 0x41#8 0#24)

/-- R195: a valid field output names eight different fields. -/
def Obligations.FieldOutputNamesAreDistinct : Prop :=
  ∀ s : State, s.Inv → s.foValid = true → ∀ i j : Fin 8, s.fo[i].fid = s.fo[j].fid → i = j

/-! ## Invariants and rules about the whole machine -/

/-- The invariant holds at reset (R260). -/
def Obligations.InvariantHoldsAtReset : Prop := State.reset.Inv

/-- Every step keeps the invariant (R21 to R35, R41, R144). -/
def Obligations.EveryStepKeepsTheInvariant : Prop :=
  ∀ s t : State, s.Inv → step s = .next t → t.Inv

/-- From a state of the invariant no step faults, and a step is refused only where no such step exists: no agent has a
turn, or the first turn is an event that R43 does not enable (the model's choice, log entries 1, 8, 10 and 13). -/
def Obligations.NoStepFaultsUnderTheInvariant : Prop :=
  ∀ s : State, s.Inv →
    (∀ f : Fault, step s ≠ .fault f) ∧
    (∀ r : Refusal, step s = .refused r →
      (s.agenda = [] ∧ s.rxeEnabled = false ∧ r = .noTurn) ∨
      (s.agenda.head? = some .rxe ∧ s.rxeEnabled = false ∧ r = .stepNotEnabled) ∨
      (s.agenda.head? = some .lineTimeout ∧ s.timeoutEnabled = false ∧ r = .stepNotEnabled))

/-- Where the reader stops, the model's choice in log entries 8, 9 and 10: TIMEOUT where R43 does not enable it and a wire
symbol that is not the next one are refused, and a fault arises only inside a frame whose counter is 0, or is 1 with nothing
received, which the invariant excludes. -/
def Obligations.StopsOfTheReaderAreTheNamedOnes : Prop :=
  ∀ (i : Instr) (s : State),
    (¬(s.rxf = [] ∧ (s.rdSt = .readLen ∨ s.rdSt = .readBody ∨ (s.rdSt = .waitDelim ∧ s.rdMode = .block))) →
      exec .timeout s = .refused .stepNotEnabled) ∧
    (∀ (ctx : WireCtx) (bytes : List Byte), encode i = .wire ctx bytes → s.symbolNext ≠ some i →
      exec i s = .refused .symbolNotNext) ∧
    (∀ f : Fault, exec i s = .fault f → s.rdSt = .readBody ∧ (s.rdRem = 0#9 ∨ (s.rdRem = 1#9 ∧ s.fb = [])))

/-- R32, R36: no step takes a byte back from the transmit stream, and no step changes the parameters. -/
def Obligations.TransmitStreamOnlyGrowsAndParametersStay : Prop :=
  ∀ s t : State, step s = .next t → s.txq <+: t.txq ∧ t.cfg = s.cfg ∧ (t.txq ≠ s.txq → s.txb ≠ [] ∧ t.txb = [])

/-- R30, R31, R33, R34, R35, R118: which instructions write the accumulator, the build buffer, the bitmap, the field
output and the overrun flag. -/
def Obligations.OnlyTheNamedInstructionsWriteEachElement : Prop :=
  ∀ (i : Instr) (s t : State), exec i s = .next t →
    (t.ckS1 ≠ s.ckS1 ∨ t.ckS2 ≠ s.ckS2 → i = .ckclr ∨ i = .reset ∨ ∃ b, i = .ckadd b) ∧
    (t.txb ≠ s.txb → i = .txbclr ∨ i = .txsend ∨ i = .reset ∨ ∃ b, i = .txbpush b) ∧
    (t.bm ≠ s.bm → i = .reset ∨ ∃ a n, i = .bmload a n) ∧
    (t.fo ≠ s.fo ∨ (t.foValid = true ∧ s.foValid = false) → i = .reset ∨ ∃ a j, i = .fldapply a j) ∧
    (t.ovr = true ∧ s.ovr = false → ∃ b, i = .lineRx b) ∧
    (t.ovr = false ∧ s.ovr = true → i = .clrovr ∨ i = .reset)

/-- R28, R130, R131: a read begins only with RDSTART, and the message changes only by RDSTART, RESET and the reader's
verify, which leaves the reader idle with the outcome OK. -/
def Obligations.ReadsBeginWithRdstartAndMessagesWithVerify : Prop :=
  ∀ (i : Instr) (s t : State), exec i s = .next t →
    (s.rdSt = .idle → t.rdSt ≠ .idle → ∃ m, i = .rdstart m) ∧
    (t.msg ≠ s.msg →
      (t.msg = [] ∧ (i = .reset ∨ ∃ m, i = .rdstart m)) ∨
      (s.rdSt = .readBody ∧ s.rdRem = 1#9 ∧ t.rdSt = .idle ∧ t.rdRes.code = .ok ∧ i.isCommand = false))

/-- R59: repeating an idempotent command gives the same state and the same response. -/
def Obligations.IdempotentCommandsRepeatToTheSame : Prop :=
  ∀ (i : Instr) (s t : State), idempotentCommand i = true → exec i s = .next t → exec i t = .next t

/-- R174, R118: a writer or checksum command and a step of the receive engine give the same state in either order, but
for the response. -/
def Obligations.WriterAndReaderAreIndependent : Prop :=
  ∀ (i : Instr) (s t u : State), i.unit = .tx ∨ i.unit = .ck → exec i s = .next t → exec .rxeStep s = .next u →
    ∃ t' u' : State, exec .rxeStep t = .next t' ∧ exec i u = .next u' ∧ { u' with resp := none } = t' ∧
      u'.resp = t.resp

/-- R42: FB, RD_LEN, RD_REM and the values of the bytes in RXF are not seen in any command's response. -/
def Obligations.HiddenReaderStateIsNotAnswered : Prop :=
  ∀ (w : Word) (s : State) (fb rxf : List Byte) (len : Byte) (rem : BitVec 9), rxf.length = s.rxf.length →
    responseOf (issue w { s with fb := fb, rxf := rxf, rdLen := len, rdRem := rem }) = responseOf (issue w s)
end

