-- ==== Sys2Proof/Laws/Decode.lean ====
section
/-! SUPPORT. Small lemmas of the decoder: the fields of a packed word, and what decodeCommand answers on one. -/

namespace Sys2Proof

/-- Masking a byte with all ones keeps it. -/
@[simp] theorem byte_and_ones (a : Byte) : a &&& 0xFF#8 = a := by
  have h : (0xFF#8 : Byte) = BitVec.allOnes 8 := rfl
  rw [h, BitVec.and_allOnes]

/-- The bits of a packed word, field by field (R70). -/
theorem getLsbD_packWord (op a b c : Byte) (i : Nat) :
    (packWord op a b c).getLsbD i =
      if i < 8 then c.getLsbD i else if i < 16 then b.getLsbD (i - 8)
      else if i < 24 then a.getLsbD (i - 16) else op.getLsbD (i - 24) := by
  have h1 := BitVec.getLsbD_append (x := op ++ a ++ b) (y := c) (i := i)
  have h2 := BitVec.getLsbD_append (x := op ++ a) (y := b) (i := i - 8)
  have h3 := BitVec.getLsbD_append (x := op) (y := a) (i := i - 8 - 8)
  refine h1.trans ?_
  rw [h2, h3]
  by_cases h8 : i < 8
  · simp [h8]
  by_cases h16 : i < 16
  · have : i - 8 < 8 := by omega
    simp [h8, h16, this]
  by_cases h24 : i < 24
  · have e1 : ¬ i - 8 < 8 := by omega
    have e2 : i - 16 < 8 := by omega
    simp [h8, h16, h24, e1, e2, show i - 8 - 8 = i - 16 by omega]
  · have e1 : ¬ i - 8 < 8 := by omega
    have e2 : ¬ i - 8 - 8 < 8 := by omega
    simp [h8, h16, h24, e1, e2, show i - 8 - 8 - 8 = i - 24 by omega]

@[simp] theorem fieldOP_packWord (op a b c : Byte) : fieldOP (packWord op a b c) = op := by
  refine BitVec.eq_of_getLsbD_eq fun i hi => ?_
  simp only [fieldOP, BitVec.getLsbD_extractLsb', hi, decide_true, Bool.true_and, getLsbD_packWord]
  split
  · omega
  split
  · omega
  split
  · omega
  · simp

@[simp] theorem fieldA_packWord (op a b c : Byte) : fieldA (packWord op a b c) = a := by
  refine BitVec.eq_of_getLsbD_eq fun i hi => ?_
  simp only [fieldA, BitVec.getLsbD_extractLsb', hi, decide_true, Bool.true_and, getLsbD_packWord]
  split
  · omega
  split
  · omega
  split
  · simp
  · omega

@[simp] theorem fieldB_packWord (op a b c : Byte) : fieldB (packWord op a b c) = b := by
  refine BitVec.eq_of_getLsbD_eq fun i hi => ?_
  simp only [fieldB, BitVec.getLsbD_extractLsb', hi, decide_true, Bool.true_and, getLsbD_packWord]
  split
  · omega
  split
  · simp
  · omega

@[simp] theorem fieldC_packWord (op a b c : Byte) : fieldC (packWord op a b c) = c := by
  refine BitVec.eq_of_getLsbD_eq fun i hi => ?_
  simp only [fieldC, BitVec.getLsbD_extractLsb', hi, decide_true, Bool.true_and, getLsbD_packWord]
  split
  · simp
  · omega

/-- Every word is the packing of its fields. -/
theorem packWord_fields (w : Word) : packWord (fieldOP w) (fieldA w) (fieldB w) (fieldC w) = w := by
  refine BitVec.eq_of_getLsbD_eq fun i hi => ?_
  rw [getLsbD_packWord]
  simp only [fieldOP, fieldA, fieldB, fieldC, BitVec.getLsbD_extractLsb']
  split
  · rename_i h; simp [h]
  split
  · rename_i h; simp [show i - 8 < 8 by omega, show 8 + (i - 8) = i by omega]
  split
  · rename_i h; simp [show i - 16 < 8 by omega, show 16 + (i - 16) = i by omega]
  · rename_i h; simp [show i - 24 < 8 by omega, show 24 + (i - 24) = i by omega]

/-- Masking a packed word masks its fields. -/
theorem packWord_and (op a b c op' a' b' c' : Byte) :
    packWord op a b c &&& packWord op' a' b' c' = packWord (op &&& op') (a &&& a') (b &&& b') (c &&& c') := by
  refine BitVec.eq_of_getLsbD_eq fun i hi => ?_
  rw [BitVec.getLsbD_and, getLsbD_packWord, getLsbD_packWord, getLsbD_packWord]
  split
  · simp
  split
  · simp
  split <;> simp

/-- Two packed words are equal exactly when their fields are. -/
theorem packWord_inj {op a b c op' a' b' c' : Byte} :
    packWord op a b c = packWord op' a' b' c' ↔ op = op' ∧ a = a' ∧ b = b' ∧ c = c' := by
  constructor
  · intro h
    exact ⟨by simpa using congrArg fieldOP h, by simpa using congrArg fieldA h, by simpa using congrArg fieldB h,
      by simpa using congrArg fieldC h⟩
  · rintro ⟨rfl, rfl, rfl, rfl⟩; rfl

/-- A packed word is zero exactly when its fields are. -/
theorem packWord_eq_zero {op a b c : Byte} : packWord op a b c = 0#32 ↔ op = 0#8 ∧ a = 0#8 ∧ b = 0#8 ∧ c = 0#8 :=
  packWord_inj (op' := 0#8) (a' := 0#8) (b' := 0#8) (c' := 0#8)

/-- The reserved-bit test of a row, field by field (R71): which bits of A, B and C have to be zero. -/
theorem packWord_and_reserved (op a b c ra rb rc : Byte) :
    packWord op a b c &&& packWord 0#8 ra rb rc = 0#32 ↔ a &&& ra = 0#8 ∧ b &&& rb = 0#8 ∧ c &&& rc = 0#8 := by
  rw [packWord_and, packWord_eq_zero]
  simp

/-- What the decoder answers on a packed word, by the row of its opcode (R71, R74, R238). -/
theorem decodeCommand_packWord (op a b c : Byte) :
    decodeCommand (packWord op a b c) =
      match opcodeRow op.toNat with
      | none => .error .unassignedOpcode
      | some r => if packWord op a b c &&& r.reserved = 0#32 then .ok (r.build a b c) else .error .reservedOperandBits := by
  cases hr : opcodeRow op.toNat <;> simp [decodeCommand, hr]

/-- What the decoder answers on a packed word with a row of the opcode map, its reserved bits written field by field. -/
theorem decodeCommand_row {op : Byte} {r : OpRow} (ra rb rc : Byte) (hr : opcodeRow op.toNat = some r)
    (hm : r.reserved = packWord 0#8 ra rb rc) (a b c : Byte) :
    decodeCommand (packWord op a b c) =
      if a &&& ra = 0#8 ∧ b &&& rb = 0#8 ∧ c &&& rc = 0#8 then .ok (r.build a b c)
      else .error .reservedOperandBits := by
  rw [decodeCommand_packWord, hr]
  simp only [hm, packWord_and_reserved]

/-- The byte that RDSTART's mode is written as is read back as that mode. -/
@[simp] theorem modeOfBit_modeByte (m : RdMode) : modeOfBit (modeByte m) = m := by
  cases m <;> rfl

end Sys2Proof
end

