-- ==== Sys2Proof/Laws/Operands.lean ====
section
/-! SUPPORT. Small lemmas of the pure functions: what each can give, so that later proofs need not unfold it. -/

namespace Sys2Proof.Machine

/-! ## The reader's counter -/

/-- Counting down a 9-bit counter that is not 0 (R136). -/
theorem rem_pred {r : BitVec 9} (h : 0 < r.toNat) : (r - 1#9).toNat = r.toNat - 1 := by
  rw [BitVec.toNat_sub_of_le]
  · simp
  · simp [BitVec.le_def]; omega

/-! ## The escape codec -/

/-- R100: the three things that escaping a byte can give. -/
theorem esc1_cases (b : Byte) :
    (b = 0x7E#8 ∧ esc1 b = [0x7D#8, 0x5E#8]) ∨ (b = 0x7D#8 ∧ esc1 b = [0x7D#8, 0x5D#8]) ∨
      (b ≠ 0x7E#8 ∧ b ≠ 0x7D#8 ∧ esc1 b = [b]) := by
  unfold esc1
  by_cases h : b = 0x7E#8
  · simp [h]
  by_cases h2 : b = 0x7D#8 <;> simp [h, h2]

/-- R77: the two bytes that may follow 0x7D, and what they stand for. -/
theorem escapedByte_eq_some {x d : Byte} :
    escapedByte x = some d ↔ (x = 0x5E#8 ∧ d = 0x7E#8) ∨ (x = 0x5D#8 ∧ d = 0x7D#8) := by
  unfold escapedByte
  by_cases h : x = 0x5E#8
  · subst h; simp [eq_comm]
  by_cases h2 : x = 0x5D#8
  · subst h2; simp [eq_comm]
  simp [h, h2]

/-- R101: a byte that is no escape is read as itself. -/
theorem unescape_of_ne {b : Byte} (h : b ≠ 0x7D#8) (s : List Byte) : unescape (b :: s) = consOk b (unescape s) := by
  rw [unescape.eq_def]; simp [h]

/-- R101: an escape is read as the byte it stands for. -/
theorem unescape_of_escape {x d : Byte} (h : escapedByte x = some d) (s : List Byte) :
    unescape (0x7D#8 :: x :: s) = consOk d (unescape s) := by
  rw [unescape.eq_def]; simp [h]

/-! ## The checksum -/

/-- R110: addition modulo 255, exactly. -/
theorem add255_toNat (x y : Byte) : (add255 x y).toNat = (x.toNat + y.toNat) % 255 := by
  simp only [add255, BitVec.toNat_ofNat]; omega

/-- R110: one more byte is one more step of the sums. -/
theorem fletcher_concat (s : List Byte) (b : Byte) : fletcher (s ++ [b]) = ckStep (fletcher s) b := by
  simp [fletcher]

/-- R137: the final two bytes split off. -/
theorem splitChecksum_concat (body : List Byte) (lo hi : Byte) :
    splitChecksum (body ++ [lo] ++ [hi]) = some (body, lo, hi) := by
  have e : body ++ [lo] ++ [hi] = body ++ [lo, hi] := by simp
  have h1 : (body ++ [lo, hi]).drop ((body ++ [lo, hi]).length - 2) = [lo, hi] := by simp
  rw [e, splitChecksum, h1]; simp

/-! ## The bitfield functions -/

/-- R185: the range lies in the message, or there is no bitmap. -/
theorem toBitMap_eq (start count : Nat) (msg : List Byte) :
    toBitMap start count msg =
      if start + count ≤ msg.length then some (msg.extract start (start + count)) else none := by
  unfold toBitMap
  by_cases h : start + count ≤ msg.length
  · rw [if_neg (by omega), if_pos h, List.extract_eq_take_drop]
    congr 2; omega
  · rw [if_pos (by omega), if_neg h]

/-- R186: slot i of an applied table. -/
theorem applyFieldTable_get (names : FieldTable) (b : Byte) (i : Fin 8) :
    (applyFieldTable names b)[i] = ⟨names[i], b.getLsbD (7 - i)⟩ := by
  simp [applyFieldTable]

/-- R193: exactly the empty list of matches is no match. -/
theorem fpKind_noMatch {m : List FpEntry} : fpKind m = .noMatch ↔ m = [] := by
  cases m with
  | nil => simp [fpKind]
  | cons e es =>
    simp only [fpKind, List.all_eq_true, decide_eq_true_eq]
    split <;> simp

/-- R193: matches of one group. -/
theorem fpKind_matched {m : List FpEntry} {g : GroupId} :
    fpKind m = .matched g ↔ m ≠ [] ∧ ∀ e ∈ m, e.group = g := by
  cases m with
  | nil => simp [fpKind]
  | cons e es =>
    simp only [fpKind, List.all_eq_true, decide_eq_true_eq]
    split
    · rename_i h
      constructor
      · intro hg
        cases hg
        simpa using h
      · rintro ⟨-, hg⟩
        rw [hg e (by simp)]
    · rename_i h
      constructor
      · intro hg; cases hg
      · rintro ⟨-, hg⟩
        exact absurd (fun x hx => (hg x (by simp [hx])).trans (hg e (by simp)).symm) h

end Sys2Proof.Machine
end

