-- ==== Sys2Proof/Laws/State.lean ====
section
/-! SUPPORT. The small lemmas of State: what each update does to each field, true by rfl, so that no later proof unfolds a
record update. -/

namespace Sys2Proof.Machine

/-! ## State.respond -/

@[simp] theorem State.respond_rxf (st : Status) (d : BitVec 24) (s : State) : (s.respond st d).rxf = s.rxf := rfl
@[simp] theorem State.respond_rdSt (st : Status) (d : BitVec 24) (s : State) : (s.respond st d).rdSt = s.rdSt := rfl
@[simp] theorem State.respond_rdMode (st : Status) (d : BitVec 24) (s : State) : (s.respond st d).rdMode = s.rdMode := rfl
@[simp] theorem State.respond_rdEsc (st : Status) (d : BitVec 24) (s : State) : (s.respond st d).rdEsc = s.rdEsc := rfl
@[simp] theorem State.respond_rdLen (st : Status) (d : BitVec 24) (s : State) : (s.respond st d).rdLen = s.rdLen := rfl
@[simp] theorem State.respond_rdRem (st : Status) (d : BitVec 24) (s : State) : (s.respond st d).rdRem = s.rdRem := rfl
@[simp] theorem State.respond_fb (st : Status) (d : BitVec 24) (s : State) : (s.respond st d).fb = s.fb := rfl
@[simp] theorem State.respond_msg (st : Status) (d : BitVec 24) (s : State) : (s.respond st d).msg = s.msg := rfl
@[simp] theorem State.respond_rdRes (st : Status) (d : BitVec 24) (s : State) : (s.respond st d).rdRes = s.rdRes := rfl
@[simp] theorem State.respond_ckS1 (st : Status) (d : BitVec 24) (s : State) : (s.respond st d).ckS1 = s.ckS1 := rfl
@[simp] theorem State.respond_ckS2 (st : Status) (d : BitVec 24) (s : State) : (s.respond st d).ckS2 = s.ckS2 := rfl
@[simp] theorem State.respond_txb (st : Status) (d : BitVec 24) (s : State) : (s.respond st d).txb = s.txb := rfl
@[simp] theorem State.respond_txq (st : Status) (d : BitVec 24) (s : State) : (s.respond st d).txq = s.txq := rfl
@[simp] theorem State.respond_bm (st : Status) (d : BitVec 24) (s : State) : (s.respond st d).bm = s.bm := rfl
@[simp] theorem State.respond_fo (st : Status) (d : BitVec 24) (s : State) : (s.respond st d).fo = s.fo := rfl
@[simp] theorem State.respond_foValid (st : Status) (d : BitVec 24) (s : State) : (s.respond st d).foValid = s.foValid := rfl
@[simp] theorem State.respond_ovr (st : Status) (d : BitVec 24) (s : State) : (s.respond st d).ovr = s.ovr := rfl
@[simp] theorem State.respond_cfg (st : Status) (d : BitVec 24) (s : State) : (s.respond st d).cfg = s.cfg := rfl
@[simp] theorem State.respond_agenda (st : Status) (d : BitVec 24) (s : State) : (s.respond st d).agenda = s.agenda := rfl
@[simp] theorem State.respond_resp (st : Status) (d : BitVec 24) (s : State) : (s.respond st d).resp = some (st.code ++ d) := rfl

/-! ## State.silent -/

@[simp] theorem State.silent_rxf (s : State) : (s.silent).rxf = s.rxf := rfl
@[simp] theorem State.silent_rdSt (s : State) : (s.silent).rdSt = s.rdSt := rfl
@[simp] theorem State.silent_rdMode (s : State) : (s.silent).rdMode = s.rdMode := rfl
@[simp] theorem State.silent_rdEsc (s : State) : (s.silent).rdEsc = s.rdEsc := rfl
@[simp] theorem State.silent_rdLen (s : State) : (s.silent).rdLen = s.rdLen := rfl
@[simp] theorem State.silent_rdRem (s : State) : (s.silent).rdRem = s.rdRem := rfl
@[simp] theorem State.silent_fb (s : State) : (s.silent).fb = s.fb := rfl
@[simp] theorem State.silent_msg (s : State) : (s.silent).msg = s.msg := rfl
@[simp] theorem State.silent_rdRes (s : State) : (s.silent).rdRes = s.rdRes := rfl
@[simp] theorem State.silent_ckS1 (s : State) : (s.silent).ckS1 = s.ckS1 := rfl
@[simp] theorem State.silent_ckS2 (s : State) : (s.silent).ckS2 = s.ckS2 := rfl
@[simp] theorem State.silent_txb (s : State) : (s.silent).txb = s.txb := rfl
@[simp] theorem State.silent_txq (s : State) : (s.silent).txq = s.txq := rfl
@[simp] theorem State.silent_bm (s : State) : (s.silent).bm = s.bm := rfl
@[simp] theorem State.silent_fo (s : State) : (s.silent).fo = s.fo := rfl
@[simp] theorem State.silent_foValid (s : State) : (s.silent).foValid = s.foValid := rfl
@[simp] theorem State.silent_ovr (s : State) : (s.silent).ovr = s.ovr := rfl
@[simp] theorem State.silent_cfg (s : State) : (s.silent).cfg = s.cfg := rfl
@[simp] theorem State.silent_agenda (s : State) : (s.silent).agenda = s.agenda := rfl
@[simp] theorem State.silent_resp (s : State) : (s.silent).resp = none := rfl

/-! ## State.frameError -/

@[simp] theorem State.frameError_rxf (c : Status) (n : BitVec 24) (s : State) : (s.frameError c n).rxf = [] := rfl
@[simp] theorem State.frameError_rdSt (c : Status) (n : BitVec 24) (s : State) : (s.frameError c n).rdSt = .idle := rfl
@[simp] theorem State.frameError_rdMode (c : Status) (n : BitVec 24) (s : State) : (s.frameError c n).rdMode = s.rdMode := rfl
@[simp] theorem State.frameError_rdEsc (c : Status) (n : BitVec 24) (s : State) : (s.frameError c n).rdEsc = false := rfl
@[simp] theorem State.frameError_rdLen (c : Status) (n : BitVec 24) (s : State) : (s.frameError c n).rdLen = s.rdLen := rfl
@[simp] theorem State.frameError_rdRem (c : Status) (n : BitVec 24) (s : State) : (s.frameError c n).rdRem = 0 := rfl
@[simp] theorem State.frameError_fb (c : Status) (n : BitVec 24) (s : State) : (s.frameError c n).fb = [] := rfl
@[simp] theorem State.frameError_msg (c : Status) (n : BitVec 24) (s : State) : (s.frameError c n).msg = s.msg := rfl
@[simp] theorem State.frameError_rdRes (c : Status) (n : BitVec 24) (s : State) : (s.frameError c n).rdRes = ⟨c, n⟩ := rfl
@[simp] theorem State.frameError_ckS1 (c : Status) (n : BitVec 24) (s : State) : (s.frameError c n).ckS1 = s.ckS1 := rfl
@[simp] theorem State.frameError_ckS2 (c : Status) (n : BitVec 24) (s : State) : (s.frameError c n).ckS2 = s.ckS2 := rfl
@[simp] theorem State.frameError_txb (c : Status) (n : BitVec 24) (s : State) : (s.frameError c n).txb = s.txb := rfl
@[simp] theorem State.frameError_txq (c : Status) (n : BitVec 24) (s : State) : (s.frameError c n).txq = s.txq := rfl
@[simp] theorem State.frameError_bm (c : Status) (n : BitVec 24) (s : State) : (s.frameError c n).bm = s.bm := rfl
@[simp] theorem State.frameError_fo (c : Status) (n : BitVec 24) (s : State) : (s.frameError c n).fo = s.fo := rfl
@[simp] theorem State.frameError_foValid (c : Status) (n : BitVec 24) (s : State) : (s.frameError c n).foValid = s.foValid := rfl
@[simp] theorem State.frameError_ovr (c : Status) (n : BitVec 24) (s : State) : (s.frameError c n).ovr = s.ovr := rfl
@[simp] theorem State.frameError_cfg (c : Status) (n : BitVec 24) (s : State) : (s.frameError c n).cfg = s.cfg := rfl
@[simp] theorem State.frameError_agenda (c : Status) (n : BitVec 24) (s : State) : (s.frameError c n).agenda = s.agenda := rfl
@[simp] theorem State.frameError_resp (c : Status) (n : BitVec 24) (s : State) : (s.frameError c n).resp = s.resp := rfl

/-! ## State.complete -/

@[simp] theorem State.complete_rxf (c : Status) (n : BitVec 24) (s : State) : (s.complete c n).rxf = s.rxf := rfl
@[simp] theorem State.complete_rdSt (c : Status) (n : BitVec 24) (s : State) : (s.complete c n).rdSt = .idle := rfl
@[simp] theorem State.complete_rdMode (c : Status) (n : BitVec 24) (s : State) : (s.complete c n).rdMode = s.rdMode := rfl
@[simp] theorem State.complete_rdEsc (c : Status) (n : BitVec 24) (s : State) : (s.complete c n).rdEsc = false := rfl
@[simp] theorem State.complete_rdLen (c : Status) (n : BitVec 24) (s : State) : (s.complete c n).rdLen = s.rdLen := rfl
@[simp] theorem State.complete_rdRem (c : Status) (n : BitVec 24) (s : State) : (s.complete c n).rdRem = 0 := rfl
@[simp] theorem State.complete_fb (c : Status) (n : BitVec 24) (s : State) : (s.complete c n).fb = s.fb := rfl
@[simp] theorem State.complete_msg (c : Status) (n : BitVec 24) (s : State) : (s.complete c n).msg = s.msg := rfl
@[simp] theorem State.complete_rdRes (c : Status) (n : BitVec 24) (s : State) : (s.complete c n).rdRes = ⟨c, n⟩ := rfl
@[simp] theorem State.complete_ckS1 (c : Status) (n : BitVec 24) (s : State) : (s.complete c n).ckS1 = s.ckS1 := rfl
@[simp] theorem State.complete_ckS2 (c : Status) (n : BitVec 24) (s : State) : (s.complete c n).ckS2 = s.ckS2 := rfl
@[simp] theorem State.complete_txb (c : Status) (n : BitVec 24) (s : State) : (s.complete c n).txb = s.txb := rfl
@[simp] theorem State.complete_txq (c : Status) (n : BitVec 24) (s : State) : (s.complete c n).txq = s.txq := rfl
@[simp] theorem State.complete_bm (c : Status) (n : BitVec 24) (s : State) : (s.complete c n).bm = s.bm := rfl
@[simp] theorem State.complete_fo (c : Status) (n : BitVec 24) (s : State) : (s.complete c n).fo = s.fo := rfl
@[simp] theorem State.complete_foValid (c : Status) (n : BitVec 24) (s : State) : (s.complete c n).foValid = s.foValid := rfl
@[simp] theorem State.complete_ovr (c : Status) (n : BitVec 24) (s : State) : (s.complete c n).ovr = s.ovr := rfl
@[simp] theorem State.complete_cfg (c : Status) (n : BitVec 24) (s : State) : (s.complete c n).cfg = s.cfg := rfl
@[simp] theorem State.complete_agenda (c : Status) (n : BitVec 24) (s : State) : (s.complete c n).agenda = s.agenda := rfl
@[simp] theorem State.complete_resp (c : Status) (n : BitVec 24) (s : State) : (s.complete c n).resp = s.resp := rfl

/-! ## State.openFrame -/

@[simp] theorem State.openFrame_rxf (s : State) : (s.openFrame).rxf = s.rxf := rfl
@[simp] theorem State.openFrame_rdSt (s : State) : (s.openFrame).rdSt = .readLen := rfl
@[simp] theorem State.openFrame_rdMode (s : State) : (s.openFrame).rdMode = s.rdMode := rfl
@[simp] theorem State.openFrame_rdEsc (s : State) : (s.openFrame).rdEsc = false := rfl
@[simp] theorem State.openFrame_rdLen (s : State) : (s.openFrame).rdLen = s.rdLen := rfl
@[simp] theorem State.openFrame_rdRem (s : State) : (s.openFrame).rdRem = s.rdRem := rfl
@[simp] theorem State.openFrame_fb (s : State) : (s.openFrame).fb = [] := rfl
@[simp] theorem State.openFrame_msg (s : State) : (s.openFrame).msg = s.msg := rfl
@[simp] theorem State.openFrame_rdRes (s : State) : (s.openFrame).rdRes = s.rdRes := rfl
@[simp] theorem State.openFrame_ckS1 (s : State) : (s.openFrame).ckS1 = s.ckS1 := rfl
@[simp] theorem State.openFrame_ckS2 (s : State) : (s.openFrame).ckS2 = s.ckS2 := rfl
@[simp] theorem State.openFrame_txb (s : State) : (s.openFrame).txb = s.txb := rfl
@[simp] theorem State.openFrame_txq (s : State) : (s.openFrame).txq = s.txq := rfl
@[simp] theorem State.openFrame_bm (s : State) : (s.openFrame).bm = s.bm := rfl
@[simp] theorem State.openFrame_fo (s : State) : (s.openFrame).fo = s.fo := rfl
@[simp] theorem State.openFrame_foValid (s : State) : (s.openFrame).foValid = s.foValid := rfl
@[simp] theorem State.openFrame_ovr (s : State) : (s.openFrame).ovr = s.ovr := rfl
@[simp] theorem State.openFrame_cfg (s : State) : (s.openFrame).cfg = s.cfg := rfl
@[simp] theorem State.openFrame_agenda (s : State) : (s.openFrame).agenda = s.agenda := rfl
@[simp] theorem State.openFrame_resp (s : State) : (s.openFrame).resp = s.resp := rfl

/-! ## State.acceptLen -/

@[simp] theorem State.acceptLen_rxf (d : Byte) (s : State) : (s.acceptLen d).rxf = s.rxf := rfl
@[simp] theorem State.acceptLen_rdSt (d : Byte) (s : State) : (s.acceptLen d).rdSt = .readBody := rfl
@[simp] theorem State.acceptLen_rdMode (d : Byte) (s : State) : (s.acceptLen d).rdMode = s.rdMode := rfl
@[simp] theorem State.acceptLen_rdEsc (d : Byte) (s : State) : (s.acceptLen d).rdEsc = s.rdEsc := rfl
@[simp] theorem State.acceptLen_rdLen (d : Byte) (s : State) : (s.acceptLen d).rdLen = d := rfl
@[simp] theorem State.acceptLen_rdRem (d : Byte) (s : State) : (s.acceptLen d).rdRem = BitVec.ofNat 9 (d.toNat + 2) := rfl
@[simp] theorem State.acceptLen_fb (d : Byte) (s : State) : (s.acceptLen d).fb = [d] := rfl
@[simp] theorem State.acceptLen_msg (d : Byte) (s : State) : (s.acceptLen d).msg = s.msg := rfl
@[simp] theorem State.acceptLen_rdRes (d : Byte) (s : State) : (s.acceptLen d).rdRes = s.rdRes := rfl
@[simp] theorem State.acceptLen_ckS1 (d : Byte) (s : State) : (s.acceptLen d).ckS1 = s.ckS1 := rfl
@[simp] theorem State.acceptLen_ckS2 (d : Byte) (s : State) : (s.acceptLen d).ckS2 = s.ckS2 := rfl
@[simp] theorem State.acceptLen_txb (d : Byte) (s : State) : (s.acceptLen d).txb = s.txb := rfl
@[simp] theorem State.acceptLen_txq (d : Byte) (s : State) : (s.acceptLen d).txq = s.txq := rfl
@[simp] theorem State.acceptLen_bm (d : Byte) (s : State) : (s.acceptLen d).bm = s.bm := rfl
@[simp] theorem State.acceptLen_fo (d : Byte) (s : State) : (s.acceptLen d).fo = s.fo := rfl
@[simp] theorem State.acceptLen_foValid (d : Byte) (s : State) : (s.acceptLen d).foValid = s.foValid := rfl
@[simp] theorem State.acceptLen_ovr (d : Byte) (s : State) : (s.acceptLen d).ovr = s.ovr := rfl
@[simp] theorem State.acceptLen_cfg (d : Byte) (s : State) : (s.acceptLen d).cfg = s.cfg := rfl
@[simp] theorem State.acceptLen_agenda (d : Byte) (s : State) : (s.acceptLen d).agenda = s.agenda := rfl
@[simp] theorem State.acceptLen_resp (d : Byte) (s : State) : (s.acceptLen d).resp = s.resp := rfl

/-! ## State.popped -/

@[simp] theorem State.popped_rxf (s : State) : (s.popped).rxf = s.rxf.tail := rfl
@[simp] theorem State.popped_rdSt (s : State) : (s.popped).rdSt = s.rdSt := rfl
@[simp] theorem State.popped_rdMode (s : State) : (s.popped).rdMode = s.rdMode := rfl
@[simp] theorem State.popped_rdEsc (s : State) : (s.popped).rdEsc = s.rdEsc := rfl
@[simp] theorem State.popped_rdLen (s : State) : (s.popped).rdLen = s.rdLen := rfl
@[simp] theorem State.popped_rdRem (s : State) : (s.popped).rdRem = s.rdRem := rfl
@[simp] theorem State.popped_fb (s : State) : (s.popped).fb = s.fb := rfl
@[simp] theorem State.popped_msg (s : State) : (s.popped).msg = s.msg := rfl
@[simp] theorem State.popped_rdRes (s : State) : (s.popped).rdRes = s.rdRes := rfl
@[simp] theorem State.popped_ckS1 (s : State) : (s.popped).ckS1 = s.ckS1 := rfl
@[simp] theorem State.popped_ckS2 (s : State) : (s.popped).ckS2 = s.ckS2 := rfl
@[simp] theorem State.popped_txb (s : State) : (s.popped).txb = s.txb := rfl
@[simp] theorem State.popped_txq (s : State) : (s.popped).txq = s.txq := rfl
@[simp] theorem State.popped_bm (s : State) : (s.popped).bm = s.bm := rfl
@[simp] theorem State.popped_fo (s : State) : (s.popped).fo = s.fo := rfl
@[simp] theorem State.popped_foValid (s : State) : (s.popped).foValid = s.foValid := rfl
@[simp] theorem State.popped_ovr (s : State) : (s.popped).ovr = s.ovr := rfl
@[simp] theorem State.popped_cfg (s : State) : (s.popped).cfg = s.cfg := rfl
@[simp] theorem State.popped_agenda (s : State) : (s.popped).agenda = s.agenda := rfl
@[simp] theorem State.popped_resp (s : State) : (s.popped).resp = none := rfl

/-! ## State.offer -/

@[simp] theorem State.offer_rxf (t : Turn) (s : State) : (s.offer t).rxf = s.rxf := rfl
@[simp] theorem State.offer_rdSt (t : Turn) (s : State) : (s.offer t).rdSt = s.rdSt := rfl
@[simp] theorem State.offer_rdMode (t : Turn) (s : State) : (s.offer t).rdMode = s.rdMode := rfl
@[simp] theorem State.offer_rdEsc (t : Turn) (s : State) : (s.offer t).rdEsc = s.rdEsc := rfl
@[simp] theorem State.offer_rdLen (t : Turn) (s : State) : (s.offer t).rdLen = s.rdLen := rfl
@[simp] theorem State.offer_rdRem (t : Turn) (s : State) : (s.offer t).rdRem = s.rdRem := rfl
@[simp] theorem State.offer_fb (t : Turn) (s : State) : (s.offer t).fb = s.fb := rfl
@[simp] theorem State.offer_msg (t : Turn) (s : State) : (s.offer t).msg = s.msg := rfl
@[simp] theorem State.offer_rdRes (t : Turn) (s : State) : (s.offer t).rdRes = s.rdRes := rfl
@[simp] theorem State.offer_ckS1 (t : Turn) (s : State) : (s.offer t).ckS1 = s.ckS1 := rfl
@[simp] theorem State.offer_ckS2 (t : Turn) (s : State) : (s.offer t).ckS2 = s.ckS2 := rfl
@[simp] theorem State.offer_txb (t : Turn) (s : State) : (s.offer t).txb = s.txb := rfl
@[simp] theorem State.offer_txq (t : Turn) (s : State) : (s.offer t).txq = s.txq := rfl
@[simp] theorem State.offer_bm (t : Turn) (s : State) : (s.offer t).bm = s.bm := rfl
@[simp] theorem State.offer_fo (t : Turn) (s : State) : (s.offer t).fo = s.fo := rfl
@[simp] theorem State.offer_foValid (t : Turn) (s : State) : (s.offer t).foValid = s.foValid := rfl
@[simp] theorem State.offer_ovr (t : Turn) (s : State) : (s.offer t).ovr = s.ovr := rfl
@[simp] theorem State.offer_cfg (t : Turn) (s : State) : (s.offer t).cfg = s.cfg := rfl
@[simp] theorem State.offer_agenda (t : Turn) (s : State) : (s.offer t).agenda = t :: s.agenda := rfl
@[simp] theorem State.offer_resp (t : Turn) (s : State) : (s.offer t).resp = s.resp := rfl

/-! ## State.startRead -/

@[simp] theorem State.startRead_rxf (m : RdMode) (s : State) : (s.startRead m).rxf = s.rxf := rfl
@[simp] theorem State.startRead_rdSt (m : RdMode) (s : State) : (s.startRead m).rdSt = .waitDelim := rfl
@[simp] theorem State.startRead_rdMode (m : RdMode) (s : State) : (s.startRead m).rdMode = m := rfl
@[simp] theorem State.startRead_rdEsc (m : RdMode) (s : State) : (s.startRead m).rdEsc = false := rfl
@[simp] theorem State.startRead_rdLen (m : RdMode) (s : State) : (s.startRead m).rdLen = 0 := rfl
@[simp] theorem State.startRead_rdRem (m : RdMode) (s : State) : (s.startRead m).rdRem = 0 := rfl
@[simp] theorem State.startRead_fb (m : RdMode) (s : State) : (s.startRead m).fb = [] := rfl
@[simp] theorem State.startRead_msg (m : RdMode) (s : State) : (s.startRead m).msg = [] := rfl
@[simp] theorem State.startRead_rdRes (m : RdMode) (s : State) : (s.startRead m).rdRes = s.rdRes := rfl
@[simp] theorem State.startRead_ckS1 (m : RdMode) (s : State) : (s.startRead m).ckS1 = s.ckS1 := rfl
@[simp] theorem State.startRead_ckS2 (m : RdMode) (s : State) : (s.startRead m).ckS2 = s.ckS2 := rfl
@[simp] theorem State.startRead_txb (m : RdMode) (s : State) : (s.startRead m).txb = s.txb := rfl
@[simp] theorem State.startRead_txq (m : RdMode) (s : State) : (s.startRead m).txq = s.txq := rfl
@[simp] theorem State.startRead_bm (m : RdMode) (s : State) : (s.startRead m).bm = s.bm := rfl
@[simp] theorem State.startRead_fo (m : RdMode) (s : State) : (s.startRead m).fo = s.fo := rfl
@[simp] theorem State.startRead_foValid (m : RdMode) (s : State) : (s.startRead m).foValid = s.foValid := rfl
@[simp] theorem State.startRead_ovr (m : RdMode) (s : State) : (s.startRead m).ovr = s.ovr := rfl
@[simp] theorem State.startRead_cfg (m : RdMode) (s : State) : (s.startRead m).cfg = s.cfg := rfl
@[simp] theorem State.startRead_agenda (m : RdMode) (s : State) : (s.startRead m).agenda = s.agenda := rfl
@[simp] theorem State.startRead_resp (m : RdMode) (s : State) : (s.startRead m).resp = s.resp := rfl

/-! ## State.startNothing -/

@[simp] theorem State.startNothing_rxf (m : RdMode) (s : State) : (s.startNothing m).rxf = s.rxf := rfl
@[simp] theorem State.startNothing_rdSt (m : RdMode) (s : State) : (s.startNothing m).rdSt = s.rdSt := rfl
@[simp] theorem State.startNothing_rdMode (m : RdMode) (s : State) : (s.startNothing m).rdMode = m := rfl
@[simp] theorem State.startNothing_rdEsc (m : RdMode) (s : State) : (s.startNothing m).rdEsc = s.rdEsc := rfl
@[simp] theorem State.startNothing_rdLen (m : RdMode) (s : State) : (s.startNothing m).rdLen = s.rdLen := rfl
@[simp] theorem State.startNothing_rdRem (m : RdMode) (s : State) : (s.startNothing m).rdRem = s.rdRem := rfl
@[simp] theorem State.startNothing_fb (m : RdMode) (s : State) : (s.startNothing m).fb = s.fb := rfl
@[simp] theorem State.startNothing_msg (m : RdMode) (s : State) : (s.startNothing m).msg = [] := rfl
@[simp] theorem State.startNothing_rdRes (m : RdMode) (s : State) : (s.startNothing m).rdRes = ⟨.noMessage, 0⟩ := rfl
@[simp] theorem State.startNothing_ckS1 (m : RdMode) (s : State) : (s.startNothing m).ckS1 = s.ckS1 := rfl
@[simp] theorem State.startNothing_ckS2 (m : RdMode) (s : State) : (s.startNothing m).ckS2 = s.ckS2 := rfl
@[simp] theorem State.startNothing_txb (m : RdMode) (s : State) : (s.startNothing m).txb = s.txb := rfl
@[simp] theorem State.startNothing_txq (m : RdMode) (s : State) : (s.startNothing m).txq = s.txq := rfl
@[simp] theorem State.startNothing_bm (m : RdMode) (s : State) : (s.startNothing m).bm = s.bm := rfl
@[simp] theorem State.startNothing_fo (m : RdMode) (s : State) : (s.startNothing m).fo = s.fo := rfl
@[simp] theorem State.startNothing_foValid (m : RdMode) (s : State) : (s.startNothing m).foValid = s.foValid := rfl
@[simp] theorem State.startNothing_ovr (m : RdMode) (s : State) : (s.startNothing m).ovr = s.ovr := rfl
@[simp] theorem State.startNothing_cfg (m : RdMode) (s : State) : (s.startNothing m).cfg = s.cfg := rfl
@[simp] theorem State.startNothing_agenda (m : RdMode) (s : State) : (s.startNothing m).agenda = s.agenda := rfl
@[simp] theorem State.startNothing_resp (m : RdMode) (s : State) : (s.startNothing m).resp = s.resp := rfl

/-! ## State.accumulate -/

@[simp] theorem State.accumulate_rxf (b : Byte) (s : State) : (s.accumulate b).rxf = s.rxf := rfl
@[simp] theorem State.accumulate_rdSt (b : Byte) (s : State) : (s.accumulate b).rdSt = s.rdSt := rfl
@[simp] theorem State.accumulate_rdMode (b : Byte) (s : State) : (s.accumulate b).rdMode = s.rdMode := rfl
@[simp] theorem State.accumulate_rdEsc (b : Byte) (s : State) : (s.accumulate b).rdEsc = s.rdEsc := rfl
@[simp] theorem State.accumulate_rdLen (b : Byte) (s : State) : (s.accumulate b).rdLen = s.rdLen := rfl
@[simp] theorem State.accumulate_rdRem (b : Byte) (s : State) : (s.accumulate b).rdRem = s.rdRem := rfl
@[simp] theorem State.accumulate_fb (b : Byte) (s : State) : (s.accumulate b).fb = s.fb := rfl
@[simp] theorem State.accumulate_msg (b : Byte) (s : State) : (s.accumulate b).msg = s.msg := rfl
@[simp] theorem State.accumulate_rdRes (b : Byte) (s : State) : (s.accumulate b).rdRes = s.rdRes := rfl
@[simp] theorem State.accumulate_ckS1 (b : Byte) (s : State) : (s.accumulate b).ckS1 = (ckStep (s.ckS1, s.ckS2) b).1 := rfl
@[simp] theorem State.accumulate_ckS2 (b : Byte) (s : State) : (s.accumulate b).ckS2 = (ckStep (s.ckS1, s.ckS2) b).2 := rfl
@[simp] theorem State.accumulate_txb (b : Byte) (s : State) : (s.accumulate b).txb = s.txb := rfl
@[simp] theorem State.accumulate_txq (b : Byte) (s : State) : (s.accumulate b).txq = s.txq := rfl
@[simp] theorem State.accumulate_bm (b : Byte) (s : State) : (s.accumulate b).bm = s.bm := rfl
@[simp] theorem State.accumulate_fo (b : Byte) (s : State) : (s.accumulate b).fo = s.fo := rfl
@[simp] theorem State.accumulate_foValid (b : Byte) (s : State) : (s.accumulate b).foValid = s.foValid := rfl
@[simp] theorem State.accumulate_ovr (b : Byte) (s : State) : (s.accumulate b).ovr = s.ovr := rfl
@[simp] theorem State.accumulate_cfg (b : Byte) (s : State) : (s.accumulate b).cfg = s.cfg := rfl
@[simp] theorem State.accumulate_agenda (b : Byte) (s : State) : (s.accumulate b).agenda = s.agenda := rfl
@[simp] theorem State.accumulate_resp (b : Byte) (s : State) : (s.accumulate b).resp = s.resp := rfl

end Sys2Proof.Machine
end

