-- ==== Sys2Proof/Laws/Ops.lean ====
section
/-! SUPPORT. One lemma per shared operation that says what it can do: the enabling conditions (R43), the fetch, accept and
verify (R135 to R137), the receive engine's step by its cases (R133, R134), the next wire symbol (R77), and runs. -/

namespace Sys2Proof.Machine

/-! ## Enabling and the fetch -/

/-- R43: when the receive engine has a step. -/
theorem rxeEnabled_iff (s : State) :
    s.rxeEnabled = true ↔ s.rdSt ≠ .idle ∧ (s.rxf ≠ [] ∨ (s.rdSt = .waitDelim ∧ s.rdMode = .nonblock)) := by
  simp [State.rxeEnabled]

/-- R43: when the line may signal the timeout. -/
theorem timeoutEnabled_iff (s : State) :
    s.timeoutEnabled = true ↔
      s.rxf = [] ∧ (s.rdSt = .readLen ∨ s.rdSt = .readBody ∨ (s.rdSt = .waitDelim ∧ s.rdMode = .block)) := by
  simp [State.timeoutEnabled, State.inFrame, or_assoc]

/-- What the fetch can answer. -/
theorem fetch_cases {s s' : State} {t : Turn} (h : s.fetch = some (t, s')) :
    (∃ rest, s.agenda = t :: rest ∧ s' = { s with agenda := rest }) ∨
      (s.agenda = [] ∧ s.rxeEnabled = true ∧ t = .rxe ∧ s' = s) := by
  unfold State.fetch at h
  split at h
  · rename_i u rest ha
    cases h
    exact .inl ⟨rest, ha, rfl⟩
  · rename_i ha
    split at h
    · rename_i hr
      cases h
      exact .inr ⟨ha, hr, rfl, rfl⟩
    · cases h

/-- The fetch takes the turn just offered. -/
theorem fetch_offer (t : Turn) (s : State) : (s.offer t).fetch = some (t, s) := rfl

/-! ## accept and verify -/

/-- R137: verify by what FB ends in. -/
theorem verify_concat {s : State} {body : List Byte} {lo hi : Byte} (h : s.fb = body ++ [lo] ++ [hi]) :
    s.verify = .next { s.judge body lo hi with fb := [] } := by
  simp only [State.verify, h, splitChecksum_concat]

/-- R135: accept in READ_LEN. -/
theorem accept_len {s : State} {d : Byte} (h : s.rdSt = .readLen) : s.accept d = .next (s.acceptLen d) := by
  simp [State.accept, h]

/-- R136: accept in READ_BODY before the last byte. -/
theorem accept_mid {s : State} {d : Byte} (h : s.rdSt = .readBody) (hr : 2 ≤ s.rdRem.toNat) :
    s.accept d = .next { s with fb := s.fb ++ [d], rdRem := s.rdRem - 1#9 } := by
  have e1 : ¬s.rdRem = 0#9 := by intro e; rw [e] at hr; simp at hr
  have e2 : ¬s.rdRem - 1#9 = 0#9 := by
    intro e
    have e3 := rem_pred (r := s.rdRem) (by omega)
    rw [e] at e3; simp at e3; omega
  simp only [State.accept, h, State.acceptBody, e1, e2]
  simp

/-- R136, R137: accept of the last byte in READ_BODY. -/
theorem accept_last {s : State} {body : List Byte} {lo d : Byte} (h : s.rdSt = .readBody) (hr : s.rdRem = 1#9)
    (hf : s.fb = body ++ [lo]) :
    s.accept d =
      if fletcher body = (lo, d) then
        .next
          { s with
            fb := [], rdEsc := false, rdRem := 0#9, rdSt := .idle, msg := body,
            rdRes := ⟨.ok, BitVec.ofNat 24 body.length⟩ }
      else
        .next
          { s with fb := [], rdEsc := false, rdRem := 0#9, rdSt := .idle, rdRes := ⟨.ckerr, 0x00#8 ++ d ++ lo⟩ } := by
  simp only [State.accept, h, State.acceptBody, hr, State.verify, hf, splitChecksum_concat, State.judge, Prod.ext_iff]
  by_cases hc : (fletcher body).1 = lo ∧ (fletcher body).2 = d
  · simp [hc, State.complete, nat24]
  · simp [hc, State.complete]

/-- R134 to R137: what accept leaves alone, whatever it does, and where it writes MSG. -/
theorem accept_frame {s t : State} {d : Byte} (h : s.accept d = .next t) :
    t.rxf = s.rxf ∧ t.rdMode = s.rdMode ∧ t.ckS1 = s.ckS1 ∧ t.ckS2 = s.ckS2 ∧ t.txb = s.txb ∧ t.txq = s.txq ∧
      t.bm = s.bm ∧ t.fo = s.fo ∧ t.foValid = s.foValid ∧ t.ovr = s.ovr ∧ t.cfg = s.cfg ∧ t.agenda = s.agenda ∧
      t.resp = s.resp ∧
      (t.msg = s.msg ∨ (s.rdSt ≠ .readLen ∧ s.rdRem = 1#9 ∧ t.rdSt = .idle ∧ t.rdRes.code = .ok)) := by
  unfold State.accept at h
  split at h
  · cases h; simp
  · rename_i hl
    unfold State.acceptBody at h
    split at h
    · cases h
    simp only at h
    split at h
    · rename_i hrem
      have hrem : s.rdRem = 1#9 := by simpa using congrArg (· + 1#9) hrem
      unfold State.verify at h
      split at h
      · cases h
      · cases h; unfold State.judge; split <;> simp [State.complete, hl, hrem]
    · cases h; simp

/-! ## The receive engine's step -/

/-- R133: an enabled engine step in WAIT_DELIM. -/
theorem exec_rxe_wait {s : State} (h : s.rdSt = .waitDelim) (he : s.rxeEnabled = true) :
    exec .rxeStep s = rxeWaitDelim s.silent := by
  simp only [exec, execRxeStep, he, h, if_true]

/-- R134: an engine step inside a frame with a byte to take. -/
theorem exec_rxe_frame {s : State} (h : s.rdSt = .readLen ∨ s.rdSt = .readBody) (hx : s.rxf ≠ []) :
    exec .rxeStep s = rxeInFrame s.silent := by
  have he : s.rxeEnabled = true := by rw [rxeEnabled_iff]; rcases h with h | h <;> simp [h, hx]
  rcases h with h | h <;> simp only [exec, execRxeStep, he, h, if_true]

/-- R134: an engine step on a byte that delivers the decoded byte `d`. -/
theorem exec_rxe_deliver {s : State} {b d : Byte} {rest : List Byte} (h : s.rdSt = .readLen ∨ s.rdSt = .readBody)
    (hx : s.rxf = b :: rest)
    (hd : (s.rdEsc = false ∧ b ≠ 0x7D#8 ∧ d = b) ∨ (s.rdEsc = true ∧ b = 0x5E#8 ∧ d = 0x7E#8) ∨
      (s.rdEsc = true ∧ b = 0x5D#8 ∧ d = 0x7D#8)) :
    exec .rxeStep s = ({ s with rxf := rest, rdEsc := false, resp := none } : State).accept d := by
  rw [exec_rxe_frame h (by simp [hx])]
  rcases hd with ⟨h1, h2, rfl⟩ | ⟨h1, rfl, rfl⟩ | ⟨h1, rfl, rfl⟩
  · simp only [rxeInFrame, State.silent, hx, h1, h2]
    simp
  · simp [rxeInFrame, State.silent, hx, h1, escapedByte]
  · simp [rxeInFrame, State.silent, hx, h1, escapedByte]

/-! ## The next wire symbol (R77) -/

/-- R77: a symbol is next only while a read is in progress and a byte has been received. -/
theorem symbolNext_some {s : State} {i : Instr} (h : s.symbolNext = some i) : s.rdSt ≠ .idle ∧ s.rxf ≠ [] := by
  unfold State.symbolNext State.wireCtx at h
  constructor
  · intro e; simp [e] at h
  · intro e; cases hs : s.rdSt <;> simp [e, hs] at h

/-- R77: before the delimiter. -/
theorem symbolNext_wait {s : State} {b : Byte} {rest : List Byte} (h : s.rdSt = .waitDelim) (hx : s.rxf = b :: rest) :
    s.symbolNext = some (if b = 0x7E#8 then .wireDelim else .wireUnexpected b) := by
  simp [State.symbolNext, State.wireCtx, h, hx, State.symbolStart, State.inFrame, decodeSymbol, decodeWire]

/-- R77: inside a frame with no escape pending. -/
theorem symbolNext_plain {s : State} {b : Byte} {rest : List Byte} (h : s.rdSt = .readLen ∨ s.rdSt = .readBody)
    (he : s.rdEsc = false) (hx : s.rxf = b :: rest) :
    s.symbolNext = if b = 0x7D#8 then none else some (.wireLiteral b) := by
  rcases h with h | h <;> by_cases hb : b = 0x7D#8 <;>
    simp [State.symbolNext, State.wireCtx, h, hx, State.symbolStart, State.inFrame, decodeSymbol, decodeWire, he, hb]

/-- R77: inside a frame with an escape pending. -/
theorem symbolNext_escape {s : State} {b : Byte} {rest : List Byte} (h : s.rdSt = .readLen ∨ s.rdSt = .readBody)
    (he : s.rdEsc = true) (hx : s.rxf = b :: rest) :
    s.symbolNext =
      some (if b = 0x5E#8 then .wireEsc7E else if b = 0x5D#8 then .wireEsc7D else .wireBadesc b) := by
  rcases h with h | h <;>
    simp [State.symbolNext, State.wireCtx, h, hx, State.symbolStart, State.inFrame, decodeSymbol, decodeWire, he]

/-- A wire symbol has its meaning exactly where it is the next one. -/
theorem whenNext_next {i : Instr} {s t : State} {f : State → Host.Outcome State Fault Refusal}
    (h : whenNext i s f = .next t) : s.symbolNext = some i ∧ f s.popped = .next t := by
  unfold whenNext at h
  split at h
  · rename_i hn; exact ⟨hn, h⟩
  · cases h

/-! ## Runs -/

/-- A run of two parts is the one after the other. -/
theorem runInstrs_append (l l' : List Instr) (s : State) :
    runInstrs (l ++ l') s =
      match runInstrs l s with
      | .next t => runInstrs l' t
      | .fault r => .fault r
      | .refused r => .refused r := by
  induction l generalizing s with
  | nil => rfl
  | cons i l ih =>
    simp only [List.cons_append, runInstrs]
    cases exec i s <;> simp [ih]

/-- One engine step as a run. -/
theorem rxeSteps_one (s : State) : rxeSteps 1 s = exec .rxeStep s := by
  simp only [rxeSteps, List.replicate_one, runInstrs]
  cases exec .rxeStep s <;> rfl

/-- Engine steps one after the other. -/
theorem rxeSteps_add (a b : Nat) (s : State) :
    rxeSteps (a + b) s =
      match rxeSteps a s with
      | .next t => rxeSteps b t
      | .fault r => .fault r
      | .refused r => .refused r := by
  simp only [rxeSteps, List.replicate_add]
  exact runInstrs_append ..

end Sys2Proof.Machine
end

