-- ==== Sys2Proof/Laws/PerInstr.lean ====
section
/-! SUPPORT. Statements about every instruction as syntax, one lemma per constructor. The family `TableRow`: the code of a
well-formed instruction is one that its row of spec/opcode_table.json describes. -/

namespace Sys2Proof.Laws.TableRow

/-- What a row of the opcode table says of an instruction's code: a command's match and mask, a wire symbol's reader
situation, first bytes and last byte, or an event. -/
inductive Row where
  | command (value mask : Word)
  | wire (ctx : WireCtx) (first : List Byte) (last : Byte → Bool)
  | event

/-- The code is one that the row describes. -/
def Row.fits : Row → Code → Prop
  | .command value mask, .turn (.host w) => w &&& mask = value
  | .wire ctx first last, .wire ctx' bytes => ctx' = ctx ∧ ∃ x, bytes = first ++ [x] ∧ last x = true
  | .event, .turn t => ∀ w, t ≠ .host w
  | .command _ _, .wire _ _ => False
  | .command _ _, .turn (.lineByte _) => False
  | .command _ _, .turn .lineTimeout => False
  | .command _ _, .turn .rxe => False
  | .wire _ _ _, .turn _ => False
  | .event, .wire _ _ => False

/-- The rows of spec/opcode_table.json, as that file gives them. -/
def row : Instr → Row
  | .nop => .command 0x00000000#32 0xFFFFFFFF#32
  | .reset => .command 0x01000000#32 0xFFFFFFFF#32
  | .flush => .command 0x02000000#32 0xFFFFFFFF#32
  | .status => .command 0x03000000#32 0xFFFFFFFF#32
  | .clrovr => .command 0x04000000#32 0xFFFFFFFF#32
  | .esc _ => .command 0x10000000#32 0xFF00FFFF#32
  | .unesc _ _ => .command 0x11000000#32 0xFF0000FF#32
  | .ckclr => .command 0x20000000#32 0xFFFFFFFF#32
  | .ckadd _ => .command 0x21000000#32 0xFF00FFFF#32
  | .ckrd => .command 0x22000000#32 0xFFFFFFFF#32
  | .ckvfy _ _ => .command 0x23000000#32 0xFF0000FF#32
  | .rdstart _ => .command 0x30000000#32 0xFFFEFFFF#32
  | .rdres => .command 0x31000000#32 0xFFFFFFFF#32
  | .msgrd _ => .command 0x32000000#32 0xFF00FFFF#32
  | .msglen => .command 0x33000000#32 0xFFFFFFFF#32
  | .txbclr => .command 0x40000000#32 0xFFFFFFFF#32
  | .txbpush _ => .command 0x41000000#32 0xFF00FFFF#32
  | .txsend => .command 0x42000000#32 0xFFFFFFFF#32
  | .bmload _ _ => .command 0x50000000#32 0xFF0000FF#32
  | .bmrd _ => .command 0x51000000#32 0xFF00FFFF#32
  | .fldapply _ _ => .command 0x52000000#32 0xFF0000FF#32
  | .ford _ => .command 0x53000000#32 0xFFF8FFFF#32
  | .typesplit => .command 0x54000000#32 0xFFFFFFFF#32
  | .fplookup _ _ _ => .command 0x55000000#32 0xFF000000#32
  | .pindec _ _ => .command 0x56000000#32 0xFF0000FF#32
  | .wireDelim => .wire .waitDelim [] fun x => x == 0x7E#8
  | .wireUnexpected _ => .wire .waitDelim [] fun x => x != 0x7E#8
  | .wireEsc7E => .wire .inFrame [0x7D#8] fun x => x == 0x5E#8
  | .wireEsc7D => .wire .inFrame [0x7D#8] fun x => x == 0x5D#8
  | .wireBadesc _ => .wire .inFrame [0x7D#8] fun x => x != 0x5E#8 && x != 0x5D#8
  | .wireLiteral _ => .wire .inFrame [] fun x => x != 0x7D#8
  | .lineRx _ => .event
  | .timeout => .event
  | .rxeStep => .event

/-- The code of the instruction is one that its row describes. -/
def Statement (i : Instr) : Prop := i.wf = true → (row i).fits (encode i)

/-- A packed word against a row's mask and match, field by field. -/
theorem packWord_fits {op a b c ma mb mc va vb vc : Byte} (ha : a &&& ma = va) (hb : b &&& mb = vb) (hc : c &&& mc = vc) :
    packWord op a b c &&& packWord 0xFF#8 ma mb mc = packWord op va vb vc := by
  rw [packWord_and, ha, hb, hc, byte_and_ones]

theorem nop : Statement (.nop) := fun _ => rfl
theorem reset : Statement (.reset) := fun _ => rfl
theorem flush : Statement (.flush) := fun _ => rfl
theorem status : Statement (.status) := fun _ => rfl
theorem clrovr : Statement (.clrovr) := fun _ => rfl
theorem esc (byte : Byte) : Statement (.esc byte) :=
  fun _ => packWord_fits (ma := 0x00#8) (mb := 0xFF#8) (mc := 0xFF#8) BitVec.and_zero rfl rfl
theorem unesc (b0 : Byte) (b1 : Byte) : Statement (.unesc b0 b1) :=
  fun _ => packWord_fits (ma := 0x00#8) (mb := 0x00#8) (mc := 0xFF#8) BitVec.and_zero BitVec.and_zero rfl
theorem ckclr : Statement (.ckclr) := fun _ => rfl
theorem ckadd (byte : Byte) : Statement (.ckadd byte) :=
  fun _ => packWord_fits (ma := 0x00#8) (mb := 0xFF#8) (mc := 0xFF#8) BitVec.and_zero rfl rfl
theorem ckrd : Statement (.ckrd) := fun _ => rfl
theorem ckvfy (lo : Byte) (hi : Byte) : Statement (.ckvfy lo hi) :=
  fun _ => packWord_fits (ma := 0x00#8) (mb := 0x00#8) (mc := 0xFF#8) BitVec.and_zero BitVec.and_zero rfl
theorem rdstart (mode : RdMode) : Statement (.rdstart mode) :=
  fun _ => packWord_fits (va := 0x00#8) (ma := 0xFE#8) (mb := 0xFF#8) (mc := 0xFF#8) (by cases mode <;> rfl) rfl rfl
theorem rdres : Statement (.rdres) := fun _ => rfl
theorem msgrd (index : Byte) : Statement (.msgrd index) :=
  fun _ => packWord_fits (ma := 0x00#8) (mb := 0xFF#8) (mc := 0xFF#8) BitVec.and_zero rfl rfl
theorem msglen : Statement (.msglen) := fun _ => rfl
theorem txbclr : Statement (.txbclr) := fun _ => rfl
theorem txbpush (byte : Byte) : Statement (.txbpush byte) :=
  fun _ => packWord_fits (ma := 0x00#8) (mb := 0xFF#8) (mc := 0xFF#8) BitVec.and_zero rfl rfl
theorem txsend : Statement (.txsend) := fun _ => rfl
theorem bmload (start : Byte) (count : Byte) : Statement (.bmload start count) :=
  fun _ => packWord_fits (ma := 0x00#8) (mb := 0x00#8) (mc := 0xFF#8) BitVec.and_zero BitVec.and_zero rfl
theorem bmrd (j : Byte) : Statement (.bmrd j) :=
  fun _ => packWord_fits (ma := 0x00#8) (mb := 0xFF#8) (mc := 0xFF#8) BitVec.and_zero rfl rfl
theorem fldapply (table : Byte) (j : Byte) : Statement (.fldapply table j) :=
  fun _ => packWord_fits (ma := 0x00#8) (mb := 0x00#8) (mc := 0xFF#8) BitVec.and_zero BitVec.and_zero rfl
theorem ford (i : BitVec 3) : Statement (.ford i) :=
  fun _ => packWord_fits (va := 0x00#8) (ma := 0xF8#8) (mb := 0xFF#8) (mc := 0xFF#8) (by revert i; decide) rfl rfl
theorem typesplit : Statement (.typesplit) := fun _ => rfl
theorem fplookup (a : Byte) (b : Byte) (c : Byte) : Statement (.fplookup a b c) :=
  fun _ => packWord_fits (ma := 0x00#8) (mb := 0x00#8) (mc := 0x00#8) BitVec.and_zero BitVec.and_zero BitVec.and_zero
theorem pindec (start : Byte) (ndigits : Byte) : Statement (.pindec start ndigits) :=
  fun _ => packWord_fits (ma := 0x00#8) (mb := 0x00#8) (mc := 0xFF#8) BitVec.and_zero BitVec.and_zero rfl
theorem wireDelim : Statement (.wireDelim) :=
  fun _ => ⟨rfl, _, rfl, rfl⟩
theorem wireUnexpected (x : Byte) : Statement (.wireUnexpected x) :=
  fun h => ⟨rfl, _, rfl, by simpa [Instr.wf] using h⟩
theorem wireEsc7E : Statement (.wireEsc7E) :=
  fun _ => ⟨rfl, _, rfl, rfl⟩
theorem wireEsc7D : Statement (.wireEsc7D) :=
  fun _ => ⟨rfl, _, rfl, rfl⟩
theorem wireBadesc (x : Byte) : Statement (.wireBadesc x) :=
  fun h => ⟨rfl, _, rfl, by simpa [Instr.wf] using h⟩
theorem wireLiteral (x : Byte) : Statement (.wireLiteral x) :=
  fun h => ⟨rfl, _, rfl, by simpa [Instr.wf] using h⟩
theorem lineRx (b : Byte) : Statement (.lineRx b) := fun _ _ h => nomatch h
theorem timeout : Statement (.timeout) := fun _ _ h => nomatch h
theorem rxeStep : Statement (.rxeStep) := fun _ _ h => nomatch h

end Sys2Proof.Laws.TableRow
end

