-- ==== Sys2Proof/Laws/Step.lean ====
section
/-! SUPPORT. Lemmas of the step: what a step can do, and what the host's word gives. -/

namespace Sys2Proof.Machine

/-- A step on a listed turn runs that turn on the state without it. -/
theorem step_turn {s : State} {t : Turn} {rest : List Turn} (h : s.agenda = t :: rest) :
    step s =
      match decodeTurn t with
      | .ok i => exec i { s with agenda := rest }
      | .error e => .next (({ s with agenda := rest } : State).rejectWord e) := by
  cases hd : decodeTurn t <;> simp [step, State.fetch, h, hd]

/-- With no turn listed only the receive engine can act. -/
theorem step_no_turn {s : State} (h : s.agenda = []) :
    step s = if s.rxeEnabled then exec .rxeStep s else .refused .noTurn := by
  cases hr : s.rxeEnabled <;> simp [step, State.fetch, h, hr, decodeTurn]

/-- What the host's word gives: its command, or the answer to a word that spells none (R225, R226). -/
theorem issue_eq (w : Word) (s : State) :
    issue w s =
      match decodeCommand w with
      | .ok i => exec i s
      | .error e => .next (s.rejectWord e) := rfl

/-- A command's answer is the state with that response. -/
theorem next_respond (s : State) (st : Status) (d : BitVec 24) :
    (.next (s.respond st d) : Host.Outcome State Fault Refusal) = answers s st.code d := rfl

/-- What a host's word with a row of the opcode map gives, its reserved bits written field by field (R71, R74, R226). -/
theorem issue_packWord {op : Byte} {r : OpRow} (ra rb rc : Byte) (hr : opcodeRow op.toNat = some r)
    (hm : r.reserved = packWord 0#8 ra rb rc) (a b c : Byte) (s : State) :
    issue (packWord op a b c) s =
      if a &&& ra = 0#8 ∧ b &&& rb = 0#8 ∧ c &&& rc = 0#8 then exec (r.build a b c) s else answers s 0x41#8 0#24 := by
  rw [issue_eq, decodeCommand_row ra rb rc hr hm]
  by_cases h : a &&& ra = 0#8 ∧ b &&& rb = 0#8 ∧ c &&& rc = 0#8
  · rw [if_pos h, if_pos h]
  · rw [if_neg h, if_neg h]
    rfl

end Sys2Proof.Machine
end

