-- ==== Sys2Proof/Tests/Slice0.lean ====
section
/-! SUPPORT. Tests: words written out from spec/30_encoding.md R74, R77 and R82, ill-formed terms, one step each on small
states with the answers that spec/95_test_vectors.md gives (the vector's name stands in the comment), and a witness for
every statement that has hypotheses. -/

namespace Sys2Proof.Tests

open Sys2Proof Sys2Proof.Machine

/-! ## Helpers -/

/-- The field tables of the preamble of spec/95_test_vectors.md. -/
def ft0 : FieldTable := #v[0x0100#16, 0x0101#16, 0x0102#16, 0x0103#16, 0x0104#16, 0x0105#16, 0x0106#16, 0x0107#16]
def ft1 : FieldTable := #v[0x0200#16, 0x0201#16, 0x0202#16, 0x0203#16, 0x0204#16, 0x0205#16, 0x0206#16, 0x0207#16]

/-- The fingerprint catalog of the preamble. -/
def catalog : List FpEntry :=
  [⟨0x0A11C0#24, 1#16⟩, ⟨0x0A11C0#24, 2#16⟩, ⟨0x0A11C0#24, 3#16⟩, ⟨0x123456#24, 7#16⟩, ⟨0x123456#24, 7#16⟩, ⟨0x000001#24, 9#16⟩]

/-- RX_DEPTH of 4, as in V-RX-30 and P6. -/
def cfg : Config := ⟨⟨4, [ft0, ft1], catalog⟩, by decide⟩

/-- The reset state of a block with these parameters. -/
def base : State := { State.reset with cfg := cfg }

/-- Waiting for the delimiter, bytes in RXF. -/
def waiting (mode : RdMode) (rxf : List Byte) : State := { base with rdSt := .waitDelim, rdMode := mode, rxf := rxf }

/-- In READ_LEN. -/
def readingLen (esc : Bool) (rxf : List Byte) : State := { base with rdSt := .readLen, rdMode := .block, rdEsc := esc, rxf := rxf }

/-- In READ_BODY of a frame of length byte `len`, with `fb` received. -/
def readingBody (len : Byte) (fb : List Byte) (esc : Bool) (rxf : List Byte) : State :=
  { base with
    rdSt := .readBody, rdMode := .block, rdEsc := esc, rdLen := len, fb := fb, rxf := rxf,
    rdRem := BitVec.ofNat 9 (len.toNat + 3 - fb.length) }

/-- After a read that gave the message. -/
def held (msg : List Byte) : State := { base with msg := msg, rdRes := ⟨.ok, BitVec.ofNat 24 msg.length⟩ }

/-- The message of V-RX-02. -/
def msg02 : List Byte := [0x05#8, 0x04#8, 0x00#8, 0x7E#8, 0x7D#8, 0x81#8]

/-- Something of the next state. -/
def after {α : Type} (o : Host.Outcome State Fault Refusal) (f : State → α) : Option α :=
  match o with
  | .next t => some (f t)
  | .fault _ => none
  | .refused _ => none

/-- The reason of a refusal. -/
def refusal (o : Host.Outcome State Fault Refusal) : Option Refusal :=
  match o with
  | .refused r => some r
  | .next _ => none
  | .fault _ => none

/-- The reason of a fault. -/
def faultOf (o : Host.Outcome State Fault Refusal) : Option Fault :=
  match o with
  | .fault r => some r
  | .next _ => none
  | .refused _ => none

/-- The response to a command word. -/
def resp (w : Word) (s : State) : Option Word := responseOf (issue w s)

/-! ## Ill-formed terms and parameters -/

theorem test_wf_unexpected_is_no_delimiter : (Instr.wireUnexpected 0x7E#8).wf = false := by decide
theorem test_wf_badesc_is_no_5E : (Instr.wireBadesc 0x5E#8).wf = false := by decide
theorem test_wf_badesc_is_no_5D : (Instr.wireBadesc 0x5D#8).wf = false := by decide
theorem test_wf_literal_is_no_7D : (Instr.wireLiteral 0x7D#8).wf = false := by decide
theorem test_wf_literal_7E : (Instr.wireLiteral 0x7E#8).wf = true := by decide

/-- A table that names a field twice (R195) makes no block. -/
theorem test_build_refuses_a_double_name :
    Config.build ⟨4, [#v[1#16, 2#16, 3#16, 4#16, 5#16, 6#16, 7#16, 1#16]], []⟩ = .error .illFormed := by decide
/-- A group of 0xFFFF (R10) makes no block. -/
theorem test_build_refuses_group_FFFF : Config.build ⟨4, [], [⟨0#24, 0xFFFF#16⟩]⟩ = .error .illFormed := by decide
/-- A FIFO of no capacity (R6) makes no block. -/
theorem test_build_refuses_no_fifo : Config.build ⟨0, [], []⟩ = .error .illFormed := by decide

/-! ## Words written out from the encodings, one for every constructor -/

theorem test_decode_system :
    decodeCommand 0x00000000#32 = .ok .nop ∧ decodeCommand 0x01000000#32 = .ok .reset ∧
    decodeCommand 0x02000000#32 = .ok .flush ∧ decodeCommand 0x03000000#32 = .ok .status ∧
    decodeCommand 0x04000000#32 = .ok .clrovr := by decide
theorem test_decode_codec :
    decodeCommand 0x107E0000#32 = .ok (.esc 0x7E#8) ∧ decodeCommand 0x117D5E00#32 = .ok (.unesc 0x7D#8 0x5E#8) := by decide
theorem test_decode_checksum :
    decodeCommand 0x20000000#32 = .ok .ckclr ∧ decodeCommand 0x21BD0000#32 = .ok (.ckadd 0xBD#8) ∧
    decodeCommand 0x22000000#32 = .ok .ckrd ∧ decodeCommand 0x23C41100#32 = .ok (.ckvfy 0xC4#8 0x11#8) := by decide
theorem test_decode_reader :
    decodeCommand 0x30000000#32 = .ok (.rdstart .nonblock) ∧ decodeCommand 0x30010000#32 = .ok (.rdstart .block) ∧
    decodeCommand 0x31000000#32 = .ok .rdres ∧ decodeCommand 0x32030000#32 = .ok (.msgrd 3#8) ∧
    decodeCommand 0x33000000#32 = .ok .msglen := by decide
theorem test_decode_writer :
    decodeCommand 0x40000000#32 = .ok .txbclr ∧ decodeCommand 0x41040000#32 = .ok (.txbpush 0x04#8) ∧
    decodeCommand 0x42000000#32 = .ok .txsend := by decide
theorem test_decode_bitfield :
    decodeCommand 0x50030200#32 = .ok (.bmload 3#8 2#8) ∧ decodeCommand 0x51020000#32 = .ok (.bmrd 2#8) ∧
    decodeCommand 0x52010200#32 = .ok (.fldapply 1#8 2#8) ∧ decodeCommand 0x53050000#32 = .ok (.ford 5#3) ∧
    decodeCommand 0x54000000#32 = .ok .typesplit ∧ decodeCommand 0x550A11C0#32 = .ok (.fplookup 0x0A#8 0x11#8 0xC0#8) ∧
    decodeCommand 0x56030600#32 = .ok (.pindec 3#8 6#8) := by decide
theorem test_decode_wire :
    decodeSymbol .waitDelim [0x7E#8] = .ok .wireDelim ∧ decodeSymbol .waitDelim [0x55#8] = .ok (.wireUnexpected 0x55#8) ∧
    decodeSymbol .inFrame [0x7D#8, 0x5E#8] = .ok .wireEsc7E ∧ decodeSymbol .inFrame [0x7D#8, 0x5D#8] = .ok .wireEsc7D ∧
    decodeSymbol .inFrame [0x7D#8, 0x41#8] = .ok (.wireBadesc 0x41#8) ∧
    decodeSymbol .inFrame [0x7E#8] = .ok (.wireLiteral 0x7E#8) := by decide
theorem test_decode_events :
    decodeTurn (.lineByte 0x55#8) = .ok (.lineRx 0x55#8) ∧ decodeTurn .lineTimeout = .ok .timeout ∧
    decodeTurn .rxe = .ok .rxeStep := by decide
theorem test_decode_refuses :
    decodeCommand 0x57000000#32 = .error .unassignedOpcode ∧ decodeCommand 0x30020000#32 = .error .reservedOperandBits ∧
    decodeCommand 0x53080000#32 = .error .reservedOperandBits ∧ decodeSymbol .inFrame [0x7D#8] = .error .incompleteEscape ∧
    decodeSymbol .waitDelim [] = .error .noByte ∧ decodeSymbol .inFrame [0x01#8, 0x02#8] = .error .trailingBytes := by decide
theorem test_table_word :
    decodeTableWord 32 0x21BD0000 = some (.ckadd 0xBD#8) ∧ decodeTableWord 8 0x41 = some (.lineRx 0x41#8) ∧
    decodeTableWord 16 0x5E7D = none := by decide

/-! ## The pure functions -/

/-- 2.1 of the vectors: the first error from the left, and a lone 0x7D at the end. -/
theorem test_unescape_errors :
    unescape [0x7D#8, 0x5E#8, 0x7D#8, 0x41#8, 0x7D#8] = .error (.badEsc 0x41#8) ∧
    unescape [0x01#8, 0x7D#8] = .error .truncated ∧ unescape [0x7E#8] = .ok [0x7E#8] := by decide
/-- E3 and 2.2: order matters, the modulus is 255. -/
theorem test_fletcher :
    fletcher [0x04#8, 0xBD#8, 0x01#8, 0x01#8, 0x01#8] = (0xC4#8, 0x11#8) ∧ fletcher [0x02#8, 0x01#8] = (0x03#8, 0x05#8) ∧
    fletcher [0xFE#8, 0xFE#8, 0xFE#8] = (0xFC#8, 0xF9#8) := by decide
/-- V-TX-03: both checksum bytes escaped. -/
theorem test_frame : frame [0x01#8, 0x7C#8] = [0x7E#8, 0x01#8, 0x7C#8, 0x7D#8, 0x5D#8, 0x7D#8, 0x5E#8] := by decide
/-- R11: `bitstr(0x7e)`; R148: the dictionary of E3. -/
theorem test_texts :
    bitstrText 0x7E#8 = "01111110" ∧ [0x04#8, 0xBD#8, 0x01#8].map dictEntry = ["04", "bd", "01"] := by decide

/-- E15: the known set, sixteen codes. -/
theorem test_received_types :
    receivedTypes =
      [0x01#6, 0x03#6, 0x04#6, 0x05#6, 0x06#6, 0x07#6, 0x08#6, 0x09#6, 0x0A#6, 0x0B#6, 0x10#6, 0x12#6, 0x1C#6, 0x1D#6, 0x1E#6,
        0x1F#6] := by decide

/-! ## One step of each instruction -/

/-- V-SYS-02, V-SYS-03. -/
theorem test_nop : resp 0x00000000#32 base = some 0x00000000#32 ∧ resp 0x00000001#32 base = some 0x41000000#32 := by decide
/-- V-SYS-04. -/
theorem test_unassigned : resp 0xFF000000#32 base = some 0x40000000#32 ∧ resp 0x12000000#32 base = some 0x40000000#32 := by decide
/-- V-SYS-05. -/
theorem test_reset :
    after (issue 0x01000000#32 { waiting .block [0x09#8] with ckS1 := 5#8, ckS2 := 5#8, txb := [0x01#8], txq := [0x7E#8] })
      (fun t => (t.rdSt, t.rxf, t.ckS1, t.txb, t.txq)) = some (.idle, [], 0#8, [], [0x7E#8]) := by decide
/-- V-SYS-06. -/
theorem test_flush :
    after (issue 0x02000000#32 { base with rxf := [0x55#8, 0x7E#8], ovr := true }) (fun t => (t.rxf, t.ovr)) =
      some ([], true) := by decide
/-- V-SYS-01. -/
theorem test_status_reset : resp 0x03000000#32 base = some 0x00030000#32 := by decide
/-- V-SYS-09. -/
theorem test_status_escape :
    resp 0x03000000#32 { readingBody 2#8 [2#8] true [] with rdRes := ⟨.noMessage, 0#24⟩ } = some 0x0001001F#32 := by decide
/-- V-SYS-07. -/
theorem test_clrovr : after (issue 0x04000000#32 { base with ovr := true }) (·.ovr) = some false := by decide
/-- V-ESC-01, V-ESC-03. -/
theorem test_esc : resp 0x107E0000#32 base = some 0x00027D5E#32 ∧ resp 0x105E0000#32 base = some 0x00015E00#32 := by decide
/-- V-ESC-09, V-ESC-12, V-ESC-13. -/
theorem test_unesc :
    resp 0x117D5D00#32 base = some 0x0002007D#32 ∧ resp 0x117D4100#32 base = some 0x11000041#32 ∧
    resp 0x117E5E00#32 base = some 0x0001007E#32 := by decide
/-- V-CK-11. -/
theorem test_ckclr :
    after (issue 0x20000000#32 { base with ckS1 := 5#8, ckS2 := 6#8 }) (fun t => (t.ckS1, t.ckS2)) = some (0#8, 0#8) := by decide
/-- V-CK-08: 254 + 255 gives 254, 254 + 1 gives 0. -/
theorem test_ckadd :
    resp 0x21FF0000#32 { base with ckS1 := 0xFE#8, ckS2 := 0xFE#8 } = some 0x0000FDFE#32 ∧
    resp 0x21010000#32 { base with ckS1 := 0xFE#8, ckS2 := 0xFD#8 } = some 0x0000FD00#32 := by decide
/-- V-CK-02, V-CK-10. -/
theorem test_ckrd :
    resp 0x22000000#32 { base with ckS1 := 0xC4#8, ckS2 := 0x11#8 } = some 0x000011C4#32 ∧
    resp 0x22000001#32 base = some 0x41000000#32 := by decide
/-- V-CK-03, V-CK-04. -/
theorem test_ckvfy :
    resp 0x23C41100#32 { base with ckS1 := 0xC4#8, ckS2 := 0x11#8 } = some 0x000111C4#32 ∧
    resp 0x2311C400#32 { base with ckS1 := 0xC4#8, ckS2 := 0x11#8 } = some 0x200011C4#32 := by decide
/-- V-RX-20, V-RX-22. -/
theorem test_rdstart :
    resp 0x30000000#32 base = some 0x01000000#32 ∧ resp 0x30000000#32 (waiting .block []) = some 0x02000000#32 := by decide
/-- V-RX-21, V-RX-28: the read starts and the message is emptied. -/
theorem test_rdstart_block :
    after (issue 0x30010000#32 (held msg02)) (fun t => (t.rdSt, t.rdMode, t.msg, t.resp)) =
      some (.waitDelim, .block, [], some 0#32) := by decide
/-- V-RX-24, V-RX-23, V-SYS-10. -/
theorem test_rdres :
    resp 0x31000000#32 base = some 0x03000000#32 ∧ resp 0x31000000#32 (waiting .block []) = some 0x02000000#32 ∧
    resp 0x31000000#32 { base with rdRes := ⟨.feTruncated, 0x010001#24⟩ } = some 0x12010001#32 := by decide
/-- V-RX-26. -/
theorem test_msgrd :
    resp 0x32050000#32 (held msg02) = some 0x00000081#32 ∧ resp 0x32060000#32 (held msg02) = some 0x30000000#32 := by decide
/-- V-RX-27. -/
theorem test_msglen : resp 0x33000000#32 (held msg02) = some 0x00000006#32 := by decide
theorem test_txbclr : after (issue 0x40000000#32 { base with txb := [1#8] }) (·.txb) = some [] := by decide
/-- V-TX-09 and the second push of P1. -/
theorem test_txbpush :
    resp 0x41BD0000#32 { base with txb := [0x04#8] } = some 0x00000002#32 ∧
    resp 0x41000000#32 { base with txb := List.replicate 256 0#8 } = some 0x50000100#32 := by decide +kernel
/-- V-TX-02, V-TX-08. -/
theorem test_txsend :
    after (issue 0x42000000#32 { base with txb := [0x01#8, 0x1D#8], txq := [0x55#8] }) (fun t => (t.txq, t.txb, t.resp)) =
      some ([0x55#8, 0x7E#8, 0x01#8, 0x1D#8, 0x1E#8, 0x1F#8], [], some 5#32) ∧
    resp 0x42000000#32 base = some 0x50000000#32 := by decide
/-- V-BF-01, V-BF-09. -/
theorem test_bmload :
    after (issue 0x50030200#32 (held msg02)) (fun t => (t.bm, t.resp)) = some ([0x7E#8, 0x7D#8], some 2#32) ∧
    after (issue 0x50030400#32 { held msg02 with bm := [1#8], foValid := true }) (fun t => (t.bm, t.foValid, t.resp)) =
      some ([], false, some 0x30000000#32) := by decide
/-- V-BF-10, V-BF-11: start at and beyond the message length. -/
theorem test_bmload_ends :
    resp 0x50060000#32 (held msg02) = some 0#32 ∧ resp 0x50070000#32 (held msg02) = some 0x30000000#32 := by decide
/-- V-BF-02. -/
theorem test_bmrd :
    resp 0x51010000#32 { base with bm := [0x7E#8, 0x7D#8] } = some 0x0000007D#32 ∧
    resp 0x51020000#32 { base with bm := [0x7E#8, 0x7D#8] } = some 0x30000000#32 := by decide
/-- V-BF-05: the first slot names bit 7. -/
theorem test_fldapply :
    after (issue 0x52010100#32 { base with bm := [0x7E#8, 0x7D#8] }) (fun t => (t.fo[0], t.fo[6], t.fo[7], t.resp)) =
      some (⟨0x0200#16, false⟩, ⟨0x0206#16, false⟩, ⟨0x0207#16, true⟩, some 0x0000017D#32) := by decide
/-- V-BF-06, V-BF-07. -/
theorem test_fldapply_fails :
    after (issue 0x52020000#32 { base with bm := [0x7E#8], foValid := true }) (fun t => (t.foValid, t.resp)) =
      some (true, some 0x41000000#32) ∧
    after (issue 0x52000100#32 { base with bm := [0x7E#8], foValid := true }) (fun t => (t.foValid, t.resp)) =
      some (false, some 0x30000000#32) := by decide
/-- V-BF-04. -/
theorem test_ford :
    resp 0x53010000#32 { base with fo := applyFieldTable ft0 0x7E#8, foValid := true } = some 0x00010101#32 ∧
    resp 0x53070000#32 { base with fo := applyFieldTable ft0 0x7E#8, foValid := true } = some 0x00000107#32 ∧
    resp 0x53000000#32 base = some 0x30000000#32 := by decide
/-- 2.5: type bytes 0xff and 0x40. -/
theorem test_typesplit :
    resp 0x54000000#32 (held [0x01#8, 0xFF#8]) = some 0x00003F03#32 ∧
    resp 0x54000000#32 (held [0x01#8, 0x40#8]) = some 0x00000002#32 ∧ resp 0x54000000#32 (held [0x00#8]) = some 0x30000000#32 := by
  decide
/-- E7, E8 and 2.5. -/
theorem test_fplookup :
    resp 0x550A11C0#32 base = some 0x3283FFFF#32 ∧ resp 0x55123456#32 base = some 0x00420007#32 ∧
    resp 0x55FFFFFF#32 base = some 0x0000FFFF#32 := by decide
/-- 2.5, the PIN vectors. -/
theorem test_pindec :
    resp 0x56030600#32 (held [0x05#8, 0x12#8, 0x00#8, 0x21#8, 0x43#8, 0x65#8]) = some 0x00123456#32 ∧
    resp 0x56030400#32 (held [0x05#8, 0x12#8, 0x00#8, 0x21#8, 0x43#8, 0x65#8]) = some 0x00123400#32 := by decide
theorem test_pindec_fails :
    resp 0x56090500#32 (held [0x05#8, 0x12#8, 0x00#8, 0x21#8, 0x43#8, 0x65#8]) = some 0x31000005#32 ∧
    resp 0x56040600#32 (held [0x05#8, 0x12#8, 0x00#8, 0x21#8, 0x43#8, 0x65#8]) = some 0x30000000#32 := by decide

/-- R77: the delimiter, and no second one inside a frame. -/
theorem test_wireDelim :
    after (exec .wireDelim (waiting .block [0x7E#8, 0x01#8])) (fun t => (t.rdSt, t.rxf)) = some (.readLen, [0x01#8]) ∧
    refusal (exec .wireDelim (readingLen false [0x7E#8])) = some .symbolNotNext := by decide
/-- V-RX-09. -/
theorem test_wireUnexpected :
    after (exec (.wireUnexpected 0x55#8) (waiting .block [0x55#8, 0x7E#8])) (fun t => (t.rdSt, t.rxf, t.rdRes.code, t.rdRes.info)) =
      some (.idle, [], .feUnexpected, 0x55#24) := by decide
theorem test_wireEsc7E :
    after (exec .wireEsc7E (readingBody 5#8 [5#8] true [0x5E#8])) (fun t => (t.fb, t.rdEsc, t.rdRem)) =
      some ([5#8, 0x7E#8], false, 6#9) := by decide
/-- V-RX-18: an escaped length byte. -/
theorem test_wireEsc7D :
    after (exec .wireEsc7D (readingLen true [0x5D#8])) (fun t => (t.fb, t.rdLen, t.rdRem, t.rdSt)) =
      some ([0x7D#8], 0x7D#8, 127#9, .readBody) := by decide
/-- V-RX-08. -/
theorem test_wireBadesc :
    after (exec (.wireBadesc 0x41#8) (readingBody 2#8 [2#8] true [0x41#8, 0x00#8])) (fun t => (t.rxf, t.rdRes.code, t.rdRes.info)) =
      some ([], .feBadesc, 0x41#24) := by decide
/-- V-RX-19: a raw 7e as the length means L = 126. -/
theorem test_wireLiteral :
    after (exec (.wireLiteral 0x7E#8) (readingLen false [0x7E#8])) (fun t => (t.rdLen, t.rdRem)) = some (0x7E#8, 128#9) := by decide
/-- V-RX-30. -/
theorem test_lineRx :
    after (exec (.lineRx 0x1F#8) { base with rxf := [0x7E#8, 0x01#8, 0x1D#8, 0x1E#8] }) (fun t => (t.rxf, t.ovr)) =
      some ([0x7E#8, 0x01#8, 0x1D#8, 0x1E#8], true) ∧
    after (exec (.lineRx 0x1E#8) { base with rxf := [0x7E#8, 0x01#8, 0x1D#8] }) (fun t => (t.rxf, t.ovr)) =
      some ([0x7E#8, 0x01#8, 0x1D#8, 0x1E#8], false) := by decide
/-- V-RX-07. -/
theorem test_timeout :
    after (exec .timeout (readingBody 2#8 [0x02#8, 0x24#8] true [])) (fun t => (t.rdSt, t.rdRes.code, t.rdRes.info)) =
      some (.idle, .feTruncated, 0x010002#24) ∧
    refusal (exec .timeout base) = some .stepNotEnabled := by decide
/-- V-RX-11a: the last byte of the frame; a checksum error does not flush. -/
theorem test_rxeStep_ckerr :
    after (exec .rxeStep (readingBody 1#8 [0x01#8, 0x24#8, 0x00#8] false [0x26#8, 0x4E#8]))
      (fun t => (t.rdSt, t.rxf, t.msg, t.rdRes.code, t.rdRes.info)) =
      some (.idle, [0x4E#8], [], .ckerr, 0x002600#24) := by decide
/-- E6: the last byte of a good frame. -/
theorem test_rxeStep_ok :
    after (exec .rxeStep (readingBody 1#8 [0x01#8, 0x15#8, 0x16#8] false [0x17#8])) (fun t => (t.rdSt, t.msg, t.rdRes.code, t.rdRes.info)) =
      some (.idle, [0x01#8, 0x15#8], .ok, 2#24) := by decide

/-- The word placed where step fetches is the instruction that the next step runs. -/
theorem test_withFetchWord :
    responseOf (step (State.reset.withFetchWord 32 0x03000000)) = some 0x00030000#32 := by decide
/-- Two faults of states that no run reaches. -/
theorem test_faults :
    faultOf (exec .rxeStep { readingBody 1#8 [1#8] false [0x26#8] with rdRem := 0#9 }) = some .rdRemUnderflow ∧
    faultOf (exec .rxeStep { readingBody 1#8 [] false [0x26#8] with rdRem := 1#9 }) = some .frameBufferShort := by decide

/-! ## Witnesses: for each statement with hypotheses, states and operands that meet them

Each theorem names its statement; where a statement has several clauses, each clause has its own conjunct, at a boundary
value of its range. -/

/-- A state of the invariant in which every unit holds something. -/
def busy : State :=
  { held msg02 with
    rxf := [0x7E#8, 0x01#8, 0x1D#8, 0x1E#8], ckS1 := 0xFE#8, ckS2 := 0xFD#8, txb := [0x04#8], txq := [0x7E#8],
    bm := [0x7E#8, 0x7D#8], fo := applyFieldTable ft1 0x7D#8, foValid := true, ovr := true }

theorem busy_inv : busy.Inv :=
  ⟨by decide, by decide, by decide, by decide, by decide, by decide, by decide,
    fun _ => ⟨ft1, by decide, 0x7D#8, by decide, rfl⟩⟩
theorem waiting_inv : (waiting .block [0x7E#8, 0x00#8, 0x00#8, 0x00#8]).Inv :=
  ⟨by decide, by decide, by decide, by decide, by decide, by decide, by decide, by decide⟩
theorem lastByte_inv : (readingBody 1#8 [0x01#8, 0x24#8, 0x00#8] false [0x26#8]).Inv :=
  ⟨by decide, by decide, by decide, by decide, by decide, by decide, by decide, by decide⟩

theorem witness_DecodeOfEncodeGivesTheInstruction :
    (Instr.wireBadesc 0x5F#8).wf = true ∧ (Instr.ford 7#3).wf = true ∧ (Instr.lineRx 0xFF#8).wf = true := by decide
theorem witness_EncodeOfDecodeGivesTheCode :
    decode (.turn (.host 0x53070000#32)) = .ok (.ford 7#3) ∧ decode (.wire .inFrame [0x7D#8, 0x7D#8]) = .ok (.wireBadesc 0x7D#8) := by
  decide
/-- The first unassigned word after the last row, a word with its lowest reserved bit set, a word of the last row. -/
theorem witness_OpcodeMapDecidesEveryWord :
    (∀ op ∈ [0x00#8, 0x01#8, 0x02#8, 0x03#8, 0x04#8, 0x10#8, 0x11#8, 0x20#8, 0x21#8, 0x22#8, 0x23#8, 0x30#8, 0x31#8, 0x32#8,
        0x33#8, 0x40#8, 0x41#8, 0x42#8, 0x50#8, 0x51#8, 0x52#8, 0x53#8, 0x54#8, 0x55#8, 0x56#8],
      (0x57000000#32).extractLsb' 24 8 ≠ op) ∧
    ((0x56030601#32).extractLsb' 24 8 = 0x56#8 ∧ 0x56030601#32 &&& 0x000000FF#32 ≠ 0#32) ∧
    ((0x56030600#32).extractLsb' 24 8 = 0x56#8 ∧ 0x56030600#32 &&& 0x000000FF#32 = 0#32) := by decide
theorem witness_StepRunsTheDecodedInstruction :
    ({ base with agenda := [.lineByte 1#8, .rxe] }.agenda = .lineByte 1#8 :: [.rxe] ∧
      decodeTurn (.lineByte 1#8) = .ok (.lineRx 1#8)) ∧
    ((waiting .nonblock []).agenda = [] ∧ (waiting .nonblock []).rxeEnabled = true) ∧
    (base.agenda = [] ∧ base.rxeEnabled = false) := by decide
theorem witness_PowerOnStateIsTheResetState : ∃ t, exec .reset busy = .next t := ⟨_, rfl⟩
theorem witness_UnescapeIsTheInverseOrTheFirstError :
    unescape [0x01#8] = .ok [0x01#8] ∧ (0x7C#8 : Byte) ≠ 0x7D#8 ∧ unescape [0x7D#8] = .error .truncated ∧
    ((0x5F#8 : Byte) ≠ 0x5E#8 ∧ (0x5F#8 : Byte) ≠ 0x5D#8) := by decide
theorem witness_CodecRoundTripsAndEscapedTextHasNoDelimiter :
    escape [0x01#8, 0x7D#8] = [0x01#8] ++ 0x7D#8 :: [0x5D#8] ∧ escape [0x7E#8] = escape [0x7E#8] := by decide
theorem witness_FletcherDetectsEveryOtherByteChange :
    (0x00#8 : Byte) ≠ 0x01#8 ∧ ¬((0x00#8 : Byte) = 0x00#8 ∧ (0x01#8 : Byte) = 0xFF#8) ∧
    ¬((0x00#8 : Byte) = 0xFF#8 ∧ (0x01#8 : Byte) = 0x00#8) := by decide
theorem witness_MsglenAnswersTheMessageLength : busy.Inv ∧ busy.msg ≠ [] := ⟨busy_inv, by decide⟩
theorem witness_RxeStepsExactlyWhereEnabled :
    (waiting .block []).rxeEnabled = false ∧
    ((waiting .block [0x7E#8, 0x00#8, 0x00#8, 0x00#8]).rxeEnabled = true ∧
      (waiting .block [0x7E#8, 0x00#8, 0x00#8, 0x00#8]).Inv) := ⟨by decide, by decide, waiting_inv⟩
theorem witness_RxeInWaitDelimTakesOnlyTheDelimiter :
    ((waiting .nonblock []).rdSt = .waitDelim ∧ (waiting .nonblock []).rxf = [] ∧ (waiting .nonblock []).rdMode = .nonblock) ∧
    ((waiting .block [0x7E#8]).rdSt = .waitDelim ∧ (waiting .block [0x7E#8]).rxf = 0x7E#8 :: []) ∧
    ((waiting .block [0x7F#8]).rdSt = .waitDelim ∧ (0x7F#8 : Byte) ≠ 0x7E#8 ∧ (waiting .block [0x7F#8]).rxf = 0x7F#8 :: []) := by
  decide
theorem witness_RxeInFrameOpensEscapesAndRejectsBadOnes :
    ((readingLen false [0x7D#8]).rdSt = .readLen ∧ (readingLen false [0x7D#8]).rxf = 0x7D#8 :: [] ∧
      (readingLen false [0x7D#8]).rdEsc = false) ∧
    ((readingBody 1#8 [1#8] true [0x5F#8]).rdSt = .readBody ∧ (readingBody 1#8 [1#8] true [0x5F#8]).rxf = 0x5F#8 :: [] ∧
      (readingBody 1#8 [1#8] true [0x5F#8]).rdEsc = true ∧ (0x5F#8 : Byte) ≠ 0x5E#8 ∧ (0x5F#8 : Byte) ≠ 0x5D#8) := by decide
/-- The three ways to deliver a byte, each with one of the three reader positions; two bytes before the end and the last. -/
theorem witness_RxeInFrameAcceptsTheDecodedByte :
    ((readingLen false [0xFF#8]).rxf = 0xFF#8 :: [] ∧ (readingLen false [0xFF#8]).rdEsc = false ∧ (0xFF#8 : Byte) ≠ 0x7D#8 ∧
      (readingLen false [0xFF#8]).rdSt = .readLen) ∧
    ((readingBody 0#8 [0#8] true [0x5E#8]).rxf = 0x5E#8 :: [] ∧ (readingBody 0#8 [0#8] true [0x5E#8]).rdEsc = true ∧
      (readingBody 0#8 [0#8] true [0x5E#8]).rdSt = .readBody ∧
      2 ≤ (readingBody 0#8 [0#8] true [0x5E#8]).rdRem.toNat) ∧
    ((readingBody 0#8 [0#8, 0#8] true [0x5D#8]).rxf = 0x5D#8 :: [] ∧ (readingBody 0#8 [0#8, 0#8] true [0x5D#8]).rdEsc = true ∧
      (readingBody 0#8 [0#8, 0#8] true [0x5D#8]).rdSt = .readBody ∧
      (readingBody 0#8 [0#8, 0#8] true [0x5D#8]).rdRem = 1#9 ∧ (readingBody 0#8 [0#8, 0#8] true [0x5D#8]).fb = [0#8] ++ [0#8]) := by
  decide
theorem witness_WireDelimiterAndErrorSymbolsComplete :
    ((waiting .block [0x7E#8]).rdSt = .waitDelim ∧ (waiting .block [0x7E#8]).rxf = 0x7E#8 :: []) ∧
    ((waiting .block [0x7D#8]).rdSt = .waitDelim ∧ (waiting .block [0x7D#8]).rxf = 0x7D#8 :: [] ∧ (0x7D#8 : Byte) ≠ 0x7E#8) ∧
    ((readingLen true [0x7D#8]).rdSt = .readLen ∧ (readingLen true [0x7D#8]).rdEsc = true ∧
      (readingLen true [0x7D#8]).rxf = 0x7D#8 :: [] ∧ (0x7D#8 : Byte) ≠ 0x5E#8 ∧ (0x7D#8 : Byte) ≠ 0x5D#8) := by decide
/-- The literal in READ_LEN, 7d 5e before the last byte, 7d 5d as the last byte. -/
theorem witness_WireDataSymbolsDeliverTheirByte :
    ((readingLen false [0x7E#8]).rdSt = .readLen ∧ (readingLen false [0x7E#8]).rxf = 0x7E#8 :: [] ∧
      (readingLen false [0x7E#8]).rdEsc = false ∧ (0x7E#8 : Byte) ≠ 0x7D#8) ∧
    ((readingBody 0#8 [0#8] true [0x5E#8]).rdSt = .readBody ∧ (readingBody 0#8 [0#8] true [0x5E#8]).rxf = 0x5E#8 :: [] ∧
      (readingBody 0#8 [0#8] true [0x5E#8]).rdEsc = true ∧ 2 ≤ (readingBody 0#8 [0#8] true [0x5E#8]).rdRem.toNat) ∧
    ((readingBody 0#8 [0#8, 0#8] true [0x5D#8]).rdSt = .readBody ∧ (readingBody 0#8 [0#8, 0#8] true [0x5D#8]).rdEsc = true ∧
      (readingBody 0#8 [0#8, 0#8] true [0x5D#8]).rxf = 0x5D#8 :: [] ∧ (readingBody 0#8 [0#8, 0#8] true [0x5D#8]).rdRem = 1#9 ∧
      (readingBody 0#8 [0#8, 0#8] true [0x5D#8]).fb = [0#8] ++ [0#8]) := by decide
theorem witness_RxeStepIsTheWireSymbolItCompletes :
    (readingLen false [0x7D#8]).rdSt ≠ .idle ∧ (readingLen false [0x7D#8]).rxf ≠ [] := by decide
/-- One byte of room, and none. -/
theorem witness_LineRxPushesOrSetsOverrun :
    { base with rxf := [1#8, 2#8, 3#8] }.rxf.length < cfg.rxDepth ∧ cfg.rxDepth ≤ busy.rxf.length := by decide
theorem witness_TimeoutEndsTheWaitingRead :
    ((waiting .block []).rxf = [] ∧ (waiting .block []).rdSt = .waitDelim ∧ (waiting .block []).rdMode = .block) ∧
    ((readingLen true []).rxf = [] ∧ (readingLen true []).rdSt = .readLen) ∧
    ((readingBody 1#8 [1#8] false []).rxf = [] ∧ (readingBody 1#8 [1#8] false []).rdSt = .readBody) := by decide
theorem witness_ExactlyOneOfRxeAndTimeoutWhileReading :
    ((waiting .nonblock []).rdSt ≠ .idle ∧ (waiting .nonblock []).rxf = []) ∧
    ((waiting .block [1#8]).rdSt ≠ .idle ∧ (waiting .block [1#8]).rxf ≠ []) ∧ base.rdSt = .idle := by decide
theorem witness_LineBytesEnterInOrderUntilFull : [0x1F#8] ≠ ([] : List Byte) ∧ busy.rxf.length ≤ busy.cfg.rxDepth := by decide
theorem witness_RxeComesToRest : (readingBody 1#8 [0x01#8, 0x24#8, 0x00#8] false [0x26#8]).Inv := lastByte_inv
/-- The shortest frame, `7e 00 00 00` of V-TX-04. -/
theorem witness_ReadingAFrameGivesBackItsBytes :
    (waiting .block [0x7E#8, 0x00#8, 0x00#8, 0x00#8]).Inv ∧
    (waiting .block [0x7E#8, 0x00#8, 0x00#8, 0x00#8]).rdSt = .waitDelim ∧ ([] : List Byte).length = (0x00#8 : Byte).toNat ∧
    (waiting .block [0x7E#8, 0x00#8, 0x00#8, 0x00#8]).rxf = frame (0x00#8 :: []) ++ [] :=
  ⟨waiting_inv, by decide, by decide, by decide⟩
theorem witness_TxsendAppendsTheFrame :
    base.txb = [] ∧ busy.txb ≠ [] ∧ { base with txb := List.replicate 256 0x7D#8 }.txb.length ≤ 256 := by decide +kernel
theorem witness_TxframeTransmitsTheFrameOfItsBytes :
    List.replicate 256 0x7D#8 ≠ [] ∧ (List.replicate 256 0x7D#8).length ≤ 256 := by decide +kernel
/-- The first table number too high, the first bitmap index too high, and the last of each that is in range. -/
theorem witness_FldapplyZipsTheTableWithTheBits :
    busy.cfg.ft.length ≤ (2#8 : Byte).toNat ∧ ((1#8 : Byte).toNat < busy.cfg.ft.length ∧ busy.bm.length ≤ (2#8 : Byte).toNat) ∧
    ((1#8 : Byte).toNat < busy.cfg.ft.length ∧ (1#8 : Byte).toNat < busy.bm.length) := by decide
theorem witness_TypesplitExtractsTheThreeFields :
    (held [0x00#8]).msg.length < 2 ∧ 2 ≤ (held [0x01#8, 0xBF#8]).msg.length := by decide
/-- No entry, two entries of one group, three entries of three groups. -/
theorem witness_FplookupClassifiesByDistinctGroups :
    (catalog.filter fun e => e.pattern = (0xFF#8 ++ 0xFF#8 ++ 0xFF#8 : BitVec 24)).length = 0 ∧
    ((catalog.filter fun e => e.pattern = (0x12#8 ++ 0x34#8 ++ 0x56#8 : BitVec 24)).map FpEntry.group).dedup = [7#16] ∧
    2 ≤ ((catalog.filter fun e => e.pattern = (0x0A#8 ++ 0x11#8 ++ 0xC0#8 : BitVec 24)).map FpEntry.group).dedup.length := by
  decide
/-- A wrong length, six digits with one byte too few, four digits up to the message's end. -/
theorem witness_PindecUnswapsTheNibbles :
    ((5#8 : Byte) ≠ 4#8 ∧ (5#8 : Byte) ≠ 6#8) ∧
    busy.msg.length < (4#8 : Byte).toNat + (6#8 : Byte).toNat / 2 ∧ (4#8 : Byte).toNat + (4#8 : Byte).toNat / 2 ≤ busy.msg.length := by
  decide
theorem witness_FieldOutputNamesAreDistinct : busy.Inv ∧ busy.foValid = true := ⟨busy_inv, rfl⟩
theorem witness_EveryStepKeepsTheInvariant :
    (readingBody 1#8 [0x01#8, 0x24#8, 0x00#8] false [0x26#8]).Inv ∧
    ∃ t, step (readingBody 1#8 [0x01#8, 0x24#8, 0x00#8] false [0x26#8]) = .next t := ⟨lastByte_inv, _, rfl⟩
/-- The three refusals. -/
theorem witness_NoStepFaultsUnderTheInvariant :
    busy.Inv ∧ refusal (step busy) = some .noTurn ∧ refusal (step (busy.offer .rxe)) = some .stepNotEnabled ∧
    refusal (step (busy.offer .lineTimeout)) = some .stepNotEnabled := ⟨busy_inv, by decide, by decide, by decide⟩
/-- A non-blocking wait, a delimiter that is not next, and the fault of a counter that is 0. -/
theorem witness_StopsOfTheReaderAreTheNamedOnes :
    ¬((waiting .nonblock []).rxf = [] ∧
      ((waiting .nonblock []).rdSt = .readLen ∨ (waiting .nonblock []).rdSt = .readBody ∨
        ((waiting .nonblock []).rdSt = .waitDelim ∧ (waiting .nonblock []).rdMode = .block))) ∧
    (encode .wireDelim = .wire .waitDelim [0x7E#8] ∧ (readingLen false [0x7E#8]).symbolNext ≠ some .wireDelim) ∧
    faultOf (exec .rxeStep { readingBody 1#8 [1#8] false [0x26#8] with rdRem := 0#9 }) = some .rdRemUnderflow := by decide
theorem witness_TransmitStreamOnlyGrowsAndParametersStay :
    ∃ t, step (busy.offer (.host 0x42000000#32)) = .next t ∧ t.txq ≠ (busy.offer (.host 0x42000000#32)).txq := ⟨_, rfl, by decide⟩
/-- Each element changed by an instruction that may change it. -/
theorem witness_OnlyTheNamedInstructionsWriteEachElement :
    after (exec .ckclr busy) (fun t => decide (t.ckS1 ≠ busy.ckS1)) = some true ∧
    after (exec (.txbpush 1#8) busy) (fun t => decide (t.txb ≠ busy.txb)) = some true ∧
    after (exec (.bmload 0#8 1#8) busy) (fun t => decide (t.bm ≠ busy.bm)) = some true ∧
    after (exec (.fldapply 0#8 0#8) busy) (fun t => decide (t.fo ≠ busy.fo)) = some true ∧
    after (exec (.lineRx 1#8) { busy with ovr := false }) (·.ovr) = some true ∧
    after (exec .clrovr busy) (·.ovr) = some false := by decide
/-- A read begun, a message emptied, and a message made by the last byte of its frame. -/
theorem witness_ReadsBeginWithRdstartAndMessagesWithVerify :
    after (exec (.rdstart .block) busy) (fun t => (decide (t.rdSt ≠ .idle), decide (t.msg ≠ busy.msg))) = some (true, true) ∧
    after (exec (.wireLiteral 0x26#8) (readingBody 1#8 [0x01#8, 0x24#8, 0x25#8] false [0x26#8])) (·.msg) = some [0x01#8, 0x24#8] := by
  decide
theorem witness_IdempotentCommandsRepeatToTheSame : ∃ t, idempotentCommand .flush = true ∧ exec .flush busy = .next t := ⟨_, rfl, rfl⟩
/-- TXSEND while a frame's last byte is read. -/
theorem witness_WriterAndReaderAreIndependent :
    Instr.unit .txsend = .tx ∧ Instr.unit .ckclr = .ck ∧
    (∃ t, exec .txsend { readingBody 1#8 [0x01#8, 0x24#8, 0x00#8] false [0x26#8] with txb := [1#8] } = .next t) ∧
    ∃ u, exec .rxeStep { readingBody 1#8 [0x01#8, 0x24#8, 0x00#8] false [0x26#8] with txb := [1#8] } = .next u :=
  ⟨rfl, rfl, ⟨_, rfl⟩, ⟨_, rfl⟩⟩
theorem witness_HiddenReaderStateIsNotAnswered : [1#8, 2#8, 3#8, 4#8].length = busy.rxf.length := by decide

end Sys2Proof.Tests
end

/-! SUPPORT. What an instruction and a step can do, each said once: the effect of a command, the moves of the reader, and
the kinds of instruction. -/

namespace Sys2Proof.Machine

/-! ## What a command does -/

/-- What a command can do to the state `s`, its response left out: nothing, or one of the named
effects. -/
inductive CommandEffect (s : State) : Instr → State → Prop where
  | keep (i : Instr) : CommandEffect s i s
  | reset : CommandEffect s .reset { State.reset with txq := s.txq, cfg := s.cfg, agenda := s.agenda }
  | flush : CommandEffect s .flush { s with rxf := [] }
  | clrovr : CommandEffect s .clrovr { s with ovr := false }
  | ckclr : CommandEffect s .ckclr { s with ckS1 := 0#8, ckS2 := 0#8 }
  | ckadd (b : Byte) : CommandEffect s (.ckadd b) (s.accumulate b)
  | startNothing (m : RdMode) (idle : s.rdSt = .idle) : CommandEffect s (.rdstart m) (s.startNothing m)
  | startRead (m : RdMode) (idle : s.rdSt = .idle) : CommandEffect s (.rdstart m) (s.startRead m)
  | txbclr : CommandEffect s .txbclr { s with txb := [] }
  | txbpush (b : Byte) (room : s.txb.length ≠ 256) : CommandEffect s (.txbpush b) { s with txb := s.txb ++ [b] }
  | txsend (held : s.txb ≠ []) : CommandEffect s .txsend { s with txq := s.txq ++ frame s.txb, txb := [] }
  | bmloadFails (start count : Byte) : CommandEffect s (.bmload start count) { s with foValid := false, bm := [] }
  | bmload (start count : Byte) (bytes : List Byte) (range : toBitMap start.toNat count.toNat s.msg = some bytes) :
      CommandEffect s (.bmload start count) { s with foValid := false, bm := bytes }
  | fldapplyFails (t j : Byte) : CommandEffect s (.fldapply t j) { s with foValid := false }
  | fldapply (t j : Byte) (names : FieldTable) (b : Byte) (table : s.cfg.ft[t.toNat]? = some names)
      (entry : s.bm[j.toNat]? = some b) :
      CommandEffect s (.fldapply t j) { s with fo := applyFieldTable names b, foValid := true }

/-- The outcome is a response to a state in which the command has had its effect (R14, R72). -/
def Responds (i : Instr) (s : State) (o : Host.Outcome State Fault Refusal) : Prop :=
  ∃ u st d, o = .next (State.respond st d u) ∧ CommandEffect s i u

/-- An effect with any response is an outcome of the command. -/
theorem CommandEffect.responds {i : Instr} {s u : State} (h : CommandEffect s i u) (st : Status) (d : BitVec 24) :
    Responds i s (.next (u.respond st d)) := ⟨u, st, d, rfl, h⟩

/-- A command that only answers. -/
theorem responds_keep (i : Instr) (s : State) (st : Status) (d : BitVec 24) : Responds i s (.next (s.respond st d)) :=
  (CommandEffect.keep i).responds st d

/-- Every command responds in every state (R20: "A HOST step is always enabled"), with one of the effects above. -/
theorem exec_command {i : Instr} (h : i.isCommand = true) (s : State) : Responds i s (exec i s) := by
  cases i with
  | nop | status | esc _ | ckrd | msglen => exact responds_keep ..
  | reset => exact CommandEffect.reset.responds ..
  | flush => exact CommandEffect.flush.responds ..
  | clrovr => exact CommandEffect.clrovr.responds ..
  | ckclr => exact CommandEffect.ckclr.responds ..
  | ckadd b => exact (CommandEffect.ckadd b).responds ..
  | txbclr => exact CommandEffect.txbclr.responds ..
  | unesc b0 b1 =>
    simp only [exec, execUnesc]
    split
    · exact responds_keep ..
    · split <;> exact responds_keep ..
  | ckvfy lo hi => simp only [exec, execCkvfy]; split <;> exact responds_keep ..
  | rdres => simp only [exec, execRdres]; split <;> exact responds_keep ..
  | msgrd j => simp only [exec, execMsgrd]; split <;> exact responds_keep ..
  | bmrd j => simp only [exec, execBmrd]; split <;> exact responds_keep ..
  | ford k => simp only [exec, execFord]; split <;> exact responds_keep ..
  | typesplit => simp only [exec, execTypesplit]; split <;> exact responds_keep ..
  | fplookup a b c => simp only [exec, execFplookup]; split <;> exact responds_keep ..
  | pindec start n =>
    simp only [exec, execPindec]
    split
    · exact responds_keep ..
    · split <;> exact responds_keep ..
  | rdstart m =>
    simp only [exec, execRdstart]
    split
    · exact responds_keep ..
    · next hst =>
      have idle : s.rdSt = .idle := not_not.mp hst
      split
      · exact (CommandEffect.startNothing m idle).responds ..
      · exact (CommandEffect.startRead m idle).responds ..
  | txbpush b =>
    simp only [exec, execTxbpush]
    split
    · exact responds_keep ..
    · next room => exact (CommandEffect.txbpush b room).responds ..
  | txsend =>
    simp only [exec, execTxsend]
    split
    · exact responds_keep ..
    · next held => exact (CommandEffect.txsend held).responds ..
  | bmload start count =>
    simp only [exec, execBmload]
    split
    · exact (CommandEffect.bmloadFails start count).responds ..
    · next range => exact (CommandEffect.bmload start count _ range).responds ..
  | fldapply t j =>
    simp only [exec, execFldapply]
    split
    · exact responds_keep ..
    · next table =>
      split
      · exact (CommandEffect.fldapplyFails t j).responds ..
      · next entry => exact (CommandEffect.fldapply t j _ _ table entry).responds ..
  | wireDelim | wireUnexpected _ | wireEsc7E | wireEsc7D | wireBadesc _ | wireLiteral _ | lineRx _ | timeout | rxeStep =>
    cases h

/-! ## What the reader does -/

/-- What the reader can do in one step of the receive engine (R133, R134) or at the timeout (R141). -/
inductive ReaderMove (s : State) (o : Host.Outcome State Fault Refusal) : Prop where
  | nothing (st : s.rdSt = .waitDelim) (fifo : s.rxf = []) (out : o = .next (s.complete .noMessage 0#24).silent)
  | truncated (st : s.rdSt = .readLen ∨ s.rdSt = .readBody) (fifo : s.rxf = [])
      (out : o = .next (s.frameError .feTruncated (truncatedInfo s)).silent)
  | opened (rest : List Byte) (st : s.rdSt = .waitDelim) (fifo : s.rxf = 0x7E#8 :: rest)
      (out : o = .next s.popped.openFrame)
  | unexpected (b : Byte) (rest : List Byte) (st : s.rdSt = .waitDelim) (fifo : s.rxf = b :: rest) (ne : b ≠ 0x7E#8)
      (out : o = .next (s.popped.frameError .feUnexpected (zext24 b)))
  | escape (rest : List Byte) (st : s.rdSt = .readLen ∨ s.rdSt = .readBody) (esc : s.rdEsc = false)
      (fifo : s.rxf = 0x7D#8 :: rest) (out : o = .next { s.popped with rdEsc := true })
  | badEscape (b : Byte) (rest : List Byte) (st : s.rdSt = .readLen ∨ s.rdSt = .readBody) (esc : s.rdEsc = true)
      (fifo : s.rxf = b :: rest) (bad : escapedByte b = none)
      (out : o = .next (s.popped.frameError .feBadesc (zext24 b)))
  | deliver (b d : Byte) (rest : List Byte) (st : s.rdSt = .readLen ∨ s.rdSt = .readBody) (fifo : s.rxf = b :: rest)
      (out : o = ({ s.popped with rdEsc := false } : State).accept d)

/-- A byte delivered inside a frame is a move of the reader. -/
theorem readerMove_deliver {s : State} {b d : Byte} {rest : List Byte} (st : s.rdSt = .readLen ∨ s.rdSt = .readBody)
    (fifo : s.rxf = b :: rest)
    (hd : (s.rdEsc = false ∧ b ≠ 0x7D#8 ∧ d = b) ∨ (s.rdEsc = true ∧ b = 0x5E#8 ∧ d = 0x7E#8) ∨
      (s.rdEsc = true ∧ b = 0x5D#8 ∧ d = 0x7D#8)) :
    ReaderMove s (exec .rxeStep s) :=
  .deliver b d rest st fifo (by rw [exec_rxe_deliver st fifo hd]; simp [State.popped, fifo])

/-- R134: the engine's step inside a frame. -/
theorem readerMove_frame {s : State} (st : s.rdSt = .readLen ∨ s.rdSt = .readBody) (hx : s.rxf ≠ []) :
    ReaderMove s (exec .rxeStep s) := by
  obtain ⟨b, rest, fifo⟩ := List.exists_cons_of_ne_nil hx
  cases esc : s.rdEsc with
  | false =>
    by_cases hb : b = 0x7D#8
    · subst hb
      refine .escape rest st esc fifo ?_
      rw [exec_rxe_frame st hx]
      simp [rxeInFrame, State.silent, State.popped, fifo, esc]
    · exact readerMove_deliver st fifo (.inl ⟨esc, hb, rfl⟩)
  | true =>
    cases hd : escapedByte b with
    | none =>
      refine .badEscape b rest st esc fifo hd ?_
      rw [exec_rxe_frame st hx]
      simp [rxeInFrame, State.silent, State.popped, fifo, esc, hd]
    | some d =>
      rcases escapedByte_eq_some.mp hd with ⟨hb, rfl⟩ | ⟨hb, rfl⟩
      · exact readerMove_deliver st fifo (.inr (.inl ⟨esc, hb, rfl⟩))
      · exact readerMove_deliver st fifo (.inr (.inr ⟨esc, hb, rfl⟩))

/-- R133: the engine's step in WAIT_DELIM. -/
theorem readerMove_wait {s : State} (st : s.rdSt = .waitDelim) (he : s.rxeEnabled = true) :
    ReaderMove s (exec .rxeStep s) := by
  rw [exec_rxe_wait st he]
  cases fifo : s.rxf with
  | nil => exact .nothing st fifo (by simp only [rxeWaitDelim, State.silent_rxf, fifo]; rfl)
  | cons b rest =>
    by_cases hb : b = 0x7E#8
    · subst hb
      exact .opened rest st fifo (by simp [rxeWaitDelim, State.silent, State.popped, fifo])
    · exact .unexpected b rest st fifo hb (by simp [rxeWaitDelim, State.silent, State.popped, fifo, hb])

/-- R132: where the engine is enabled its step is a move of the reader. -/
theorem readerMove_of_rxeEnabled {s : State} (he : s.rxeEnabled = true) : ReaderMove s (exec .rxeStep s) := by
  obtain ⟨hst, hwhy⟩ := (rxeEnabled_iff s).mp he
  cases st : s.rdSt with
  | idle => exact absurd st hst
  | waitDelim => exact readerMove_wait st he
  | readLen => exact readerMove_frame (.inl st) (by simpa [st] using hwhy)
  | readBody => exact readerMove_frame (.inr st) (by simpa [st] using hwhy)

/-- R132: where the engine is not enabled it has no step (log entry 8). -/
theorem exec_rxe_disabled {s : State} (he : s.rxeEnabled = false) : exec .rxeStep s = .refused .stepNotEnabled := by
  simp [exec, execRxeStep, he]

/-- R43: where the timeout is not enabled it has no step (log entry 8). -/
theorem exec_timeout_disabled {s : State} (he : s.timeoutEnabled = false) :
    exec .timeout s = .refused .stepNotEnabled := by
  simp [exec, execTimeout, he]

/-- R141: where the timeout is enabled it is a move of the reader. -/
theorem readerMove_of_timeoutEnabled {s : State} (he : s.timeoutEnabled = true) : ReaderMove s (exec .timeout s) := by
  obtain ⟨fifo, hst⟩ := (timeoutEnabled_iff s).mp he
  rcases hst with st | st | ⟨st, -⟩
  · exact .truncated (.inl st) fifo (by simp [exec, execTimeout, he, st])
  · exact .truncated (.inr st) fifo (by simp [exec, execTimeout, he, st])
  · exact .nothing st fifo (by simp [exec, execTimeout, he, st])

/-- R77, R133: in WAIT_DELIM the symbol that is next is the engine's step. -/
theorem exec_symbolNext_wait {i : Instr} {s : State} (h : s.symbolNext = some i) (st : s.rdSt = .waitDelim)
    (he : s.rxeEnabled = true) : exec i s = exec .rxeStep s := by
  obtain ⟨b, rest, fifo⟩ := List.exists_cons_of_ne_nil (symbolNext_some h).2
  rw [exec_rxe_wait st he]
  have hi := symbolNext_wait st fifo
  rw [h] at hi
  by_cases hb : b = 0x7E#8
  · rw [if_pos hb] at hi
    cases hi
    simp [exec, execWireDelim, whenNext, h, rxeWaitDelim, State.silent, State.popped, fifo, hb]
  · rw [if_neg hb] at hi
    cases hi
    simp [exec, execWireUnexpected, whenNext, h, rxeWaitDelim, State.silent, State.popped, fifo, hb]

/-- R77, R134: inside a frame with no escape pending the symbol that is next is the engine's step. -/
theorem exec_symbolNext_plain {i : Instr} {s : State} (h : s.symbolNext = some i)
    (st : s.rdSt = .readLen ∨ s.rdSt = .readBody) (esc : s.rdEsc = false) : exec i s = exec .rxeStep s := by
  have hx := (symbolNext_some h).2
  obtain ⟨b, rest, fifo⟩ := List.exists_cons_of_ne_nil hx
  rw [exec_rxe_frame st hx]
  have hi := symbolNext_plain st esc fifo
  rw [h] at hi
  by_cases hb : b = 0x7D#8
  · rw [if_pos hb] at hi
    cases hi
  · rw [if_neg hb] at hi
    cases hi
    simp [exec, execWireLiteral, whenNext, h, rxeInFrame, State.silent, State.popped, fifo, esc, hb]

/-- R77, R134: inside a frame with an escape pending the symbol that is next is the engine's step. -/
theorem exec_symbolNext_escape {i : Instr} {s : State} (h : s.symbolNext = some i)
    (st : s.rdSt = .readLen ∨ s.rdSt = .readBody) (esc : s.rdEsc = true) : exec i s = exec .rxeStep s := by
  have hx := (symbolNext_some h).2
  obtain ⟨b, rest, fifo⟩ := List.exists_cons_of_ne_nil hx
  rw [exec_rxe_frame st hx]
  have hi := symbolNext_escape st esc fifo
  rw [h] at hi
  by_cases h5E : b = 0x5E#8
  · rw [if_pos h5E] at hi
    cases hi
    simp [exec, execWireEsc7E, whenNext, h, rxeInFrame, State.silent, State.popped, fifo, esc, h5E, escapedByte]
  by_cases h5D : b = 0x5D#8
  · rw [if_neg h5E, if_pos h5D] at hi
    cases hi
    simp [exec, execWireEsc7D, whenNext, h, rxeInFrame, State.silent, State.popped, fifo, esc, h5D, escapedByte]
  · rw [if_neg h5E, if_neg h5D] at hi
    cases hi
    simp [exec, execWireBadesc, whenNext, h, rxeInFrame, State.silent, State.popped, fifo, esc, h5E, h5D, escapedByte]

/-- R43, R77: where a symbol is next the engine is enabled. -/
theorem rxeEnabled_of_symbolNext {i : Instr} {s : State} (h : s.symbolNext = some i) : s.rxeEnabled = true := by
  obtain ⟨hst, hx⟩ := symbolNext_some h
  exact (rxeEnabled_iff s).mpr ⟨hst, .inl hx⟩

/-- R77, R132: the wire symbol that is next has the meaning of the engine's step on its last byte (log entry 9). -/
theorem exec_symbolNext {i : Instr} {s : State} (h : s.symbolNext = some i) : exec i s = exec .rxeStep s := by
  have inFrame (st : s.rdSt = .readLen ∨ s.rdSt = .readBody) : exec i s = exec .rxeStep s := by
    cases esc : s.rdEsc with
    | false => exact exec_symbolNext_plain h st esc
    | true => exact exec_symbolNext_escape h st esc
  cases st : s.rdSt with
  | idle => exact absurd st (symbolNext_some h).1
  | waitDelim => exact exec_symbolNext_wait h st (rxeEnabled_of_symbolNext h)
  | readLen => exact inFrame (.inl st)
  | readBody => exact inFrame (.inr st)

/-- A wire symbol is refused where it is not the next one (log entry 9). -/
theorem exec_wire_not_next {i : Instr} {s : State} {ctx : WireCtx} {bytes : List Byte} (hw : encode i = .wire ctx bytes)
    (hn : s.symbolNext ≠ some i) : exec i s = .refused .symbolNotNext := by
  cases i with
  | wireDelim | wireUnexpected _ | wireEsc7E | wireEsc7D | wireBadesc _ | wireLiteral _ => exact if_neg hn
  | _ => cases hw

/-! ## Every instruction -/

/-- R20, R74, R77: an instruction is a command, a wire symbol or one of the three events. -/
theorem instr_kinds (i : Instr) :
    i.isCommand = true ∨ (∃ ctx bytes, encode i = .wire ctx bytes) ∨ (∃ b, i = .lineRx b) ∨ i = .timeout ∨ i = .rxeStep := by
  cases i <;> simp [Instr.isCommand, encode]

/-- A command's code is a word of the host, so that no event and no wire symbol is a command. -/
theorem isCommand_wire {i : Instr} {ctx : WireCtx} {bytes : List Byte} (hw : encode i = .wire ctx bytes) :
    i.isCommand = false := by
  simp [Instr.isCommand, hw]

/-- Everything that an instruction can do: a command responds, LINE_RX delivers its byte, and every other one is a move of
the reader or is refused. -/
theorem exec_cases (i : Instr) (s : State) :
    (i.isCommand = true ∧ Responds i s (exec i s)) ∨ (∃ b, i = .lineRx b ∧ exec i s = .next (s.receive b).silent) ∨
      (i.isCommand = false ∧ ReaderMove s (exec i s)) ∨ ∃ r, exec i s = .refused r := by
  rcases instr_kinds i with hc | ⟨ctx, bytes, hw⟩ | ⟨b, rfl⟩ | rfl | rfl
  · exact .inl ⟨hc, exec_command hc s⟩
  · by_cases hn : s.symbolNext = some i
    · have hmove := readerMove_of_rxeEnabled (rxeEnabled_of_symbolNext hn)
      exact .inr (.inr (.inl ⟨isCommand_wire hw, exec_symbolNext hn ▸ hmove⟩))
    · exact .inr (.inr (.inr ⟨_, exec_wire_not_next hw hn⟩))
  · exact .inr (.inl ⟨b, rfl, rfl⟩)
  · cases he : s.timeoutEnabled with
    | true => exact .inr (.inr (.inl ⟨rfl, readerMove_of_timeoutEnabled he⟩))
    | false => exact .inr (.inr (.inr ⟨_, exec_timeout_disabled he⟩))
  · cases he : s.rxeEnabled with
    | true => exact .inr (.inr (.inl ⟨rfl, readerMove_of_rxeEnabled he⟩))
    | false => exact .inr (.inr (.inr ⟨_, exec_rxe_disabled he⟩))

/-- The three ways in which an instruction gives a next state. -/
theorem exec_next_cases {i : Instr} {s t : State} (h : exec i s = .next t) :
    (∃ u st d, t = State.respond st d u ∧ CommandEffect s i u) ∨ (∃ b, i = .lineRx b ∧ t = (s.receive b).silent) ∨
      (i.isCommand = false ∧ ReaderMove s (.next t)) := by
  have hcases := exec_cases i s
  rw [h] at hcases
  rcases hcases with ⟨-, u, st, d, hu, heff⟩ | ⟨b, rfl, hb⟩ | hmove | ⟨r, hr⟩
  · cases hu
    exact .inl ⟨u, st, d, rfl, heff⟩
  · cases hb
    exact .inr (.inl ⟨b, rfl, rfl⟩)
  · exact .inr (.inr hmove)
  · cases hr

/-- What a step that gives a next state has done: an instruction, or the answer to a word that spells none, on a state in
which only the agenda differs. -/
theorem step_next_cases {s t : State} (h : step s = .next t) :
    ∃ a, (∃ i, exec i { s with agenda := a } = .next t) ∨ ∃ st d, t = State.respond st d { s with agenda := a } := by
  cases ha : s.agenda with
  | nil =>
    rw [step_no_turn ha] at h
    split at h
    · exact ⟨[], .inl ⟨_, by rw [← ha]; exact h⟩⟩
    · cases h
  | cons turn rest =>
    rw [step_turn ha] at h
    split at h
    · next i _ => exact ⟨rest, .inl ⟨i, h⟩⟩
    · next e _ =>
      cases h
      cases e <;> exact ⟨rest, .inr ⟨_, _, rfl⟩⟩

end Sys2Proof.Machine

/-! SUPPORT. What the reader leaves alone, and the invariant under each command and each move of the reader. -/

namespace Sys2Proof.Machine

/-! ## What the reader leaves alone -/

/-- The elements of the other units (R30 to R36) and the agenda are the same in both states. -/
structure SameUnits (s t : State) : Prop where
  ckS1 : t.ckS1 = s.ckS1
  ckS2 : t.ckS2 = s.ckS2
  txb : t.txb = s.txb
  txq : t.txq = s.txq
  bm : t.bm = s.bm
  fo : t.fo = s.fo
  foValid : t.foValid = s.foValid
  ovr : t.ovr = s.ovr
  cfg : t.cfg = s.cfg

/-- R118, R174: no move of the reader touches another unit's elements. -/
theorem ReaderMove.sameUnits {s t : State} (h : ReaderMove s (.next t)) : SameUnits s t := by
  cases h with
  | nothing _ _ out | truncated _ _ out | opened _ _ _ out | unexpected _ _ _ _ _ out | escape _ _ _ _ out
    | badEscape _ _ _ _ _ _ out => cases out; constructor <;> rfl
  | deliver b d rest _ _ out =>
    obtain ⟨-, -, hs1, hs2, htxb, htxq, hbm, hfo, hvalid, hovr, hcfg, -⟩ := accept_frame out.symm
    exact ⟨hs1, hs2, htxb, htxq, hbm, hfo, hvalid, hovr, hcfg⟩

/-- R132: the reader moves only while a read is in progress. -/
theorem ReaderMove.rdSt_ne_idle {s : State} {o : Host.Outcome State Fault Refusal} (h : ReaderMove s o) :
    s.rdSt ≠ .idle := by
  cases h with
  | nothing st | opened _ st | unexpected _ _ st => simp [st]
  | truncated st | escape _ st | badEscape _ _ st | deliver _ _ _ st => rcases st with st | st <;> simp [st]

/-- R137: a move of the reader writes MSG only at the last byte of a frame, which ends the read with OK. -/
theorem ReaderMove.msg {s t : State} (h : ReaderMove s (.next t)) :
    t.msg = s.msg ∨ (s.rdSt = .readBody ∧ s.rdRem = 1#9 ∧ t.rdSt = .idle ∧ t.rdRes.code = .ok) := by
  cases h with
  | nothing _ _ out | truncated _ _ out | opened _ _ _ out | unexpected _ _ _ _ _ out | escape _ _ _ _ out
    | badEscape _ _ _ _ _ _ out => cases out; exact .inl rfl
  | deliver b d rest st _ out =>
    obtain ⟨-, -, -, -, -, -, -, -, -, -, -, -, -, hmsg⟩ := accept_frame out.symm
    exact hmsg.imp id fun ⟨hl, hrest⟩ => ⟨st.resolve_left hl, hrest⟩

/-- R132: a move of the reader takes a byte of RXF, or ends the read. -/
theorem ReaderMove.progress {s t : State} (h : ReaderMove s (.next t)) :
    t.rxf.length < s.rxf.length ∨ t.rdSt = .idle := by
  cases h with
  | nothing _ _ out | truncated _ _ out | unexpected _ _ _ _ _ out | badEscape _ _ _ _ _ _ out =>
    cases out; exact .inr rfl
  | opened _ _ fifo out | escape _ _ _ fifo out => cases out; simp [fifo]
  | deliver b d rest _ fifo out =>
    obtain ⟨hrxf, -⟩ := accept_frame out.symm
    simp [hrxf, fifo]

/-- R136, R137: where accept has no value: the counter has run out, or there is no first checksum byte. -/
theorem accept_fault {s : State} {d : Byte} {f : Fault} (h : s.accept d = .fault f) :
    s.rdSt ≠ .readLen ∧ (s.rdRem = 0#9 ∨ (s.rdRem = 1#9 ∧ s.fb = [])) := by
  unfold State.accept at h
  split at h
  · cases h
  · next hst =>
    refine ⟨hst, ?_⟩
    by_cases h0 : s.rdRem = 0#9
    · exact .inl h0
    by_cases h1 : s.rdRem - 1#9 = 0#9
    · refine .inr ⟨by simpa using congrArg (· + 1#9) h1, ?_⟩
      rcases List.eq_nil_or_concat s.fb with hfb | ⟨body, lo, hfb⟩
      · exact hfb
      · simp only [State.acceptBody, h0, h1, if_false, if_true] at h
        rw [verify_concat (body := body) (lo := lo) (hi := d) (by simp [hfb])] at h
        cases h
    · simp [State.acceptBody, h0, h1] at h

/-- A move of the reader faults only where accept does. -/
theorem ReaderMove.fault {s : State} {f : Fault} (h : ReaderMove s (.fault f)) :
    s.rdSt = .readBody ∧ (s.rdRem = 0#9 ∨ (s.rdRem = 1#9 ∧ s.fb = [])) := by
  cases h with
  | nothing _ _ out | truncated _ _ out | opened _ _ _ out | unexpected _ _ _ _ _ out | escape _ _ _ _ out
    | badEscape _ _ _ _ _ _ out => cases out
  | deliver b d rest st _ out =>
    obtain ⟨hl, hrem⟩ := accept_fault out.symm
    exact ⟨st.resolve_left hl, hrem⟩

/-! ## The invariant: what changes nothing that it speaks of -/

/-- R72: a response is no element of the block. -/
theorem State.Inv.respond {s : State} (h : s.Inv) (st : Status) (d : BitVec 24) : (s.respond st d).Inv := { h with }
/-- R140: nor is its absence. -/
theorem State.Inv.silent {s : State} (h : s.Inv) : s.silent.Inv := { h with }
/-- R20: the turns still to come are the other agents'. -/
theorem State.Inv.agenda {s : State} (h : s.Inv) (a : List Turn) : State.Inv { s with agenda := a } := { h with }

/-- Popping a byte makes RXF shorter. -/
theorem State.Inv.popped {s : State} (h : s.Inv) : s.popped.Inv :=
  { h with fifo := by have := h.fifo; simp; omega }

/-! ## The invariant and the commands -/

/-- R260: the reset values meet the invariant, whatever is on the transmit stream and whatever the parameters are. -/
theorem inv_reset (txq : List Byte) (cfg : Config) (a : List Turn) :
    State.Inv { State.reset with txq := txq, cfg := cfg, agenda := a } where
  fifo := Nat.zero_le _
  reader := by simp [State.readerOk, State.reset]
  message := by simp [State.messageOk, State.reset]
  result := by simp [State.resultOk, State.reset]
  sums := by simp [State.reset]
  build := by simp [State.reset]
  bitmap := by simp [State.reset]
  fields := by simp [State.fieldOutputOk, State.reset]

/-- R112: a sum modulo 255 is at most 254. -/
theorem add255_le (x y : Byte) : (add255 x y).toNat ≤ 254 := by
  rw [add255_toNat]
  omega

/-- R185: a bitmap is no longer than it was asked to be. -/
theorem toBitMap_length {start count : Nat} {msg bytes : List Byte} (h : toBitMap start count msg = some bytes) :
    bytes.length ≤ count := by
  rw [toBitMap_eq] at h
  split at h
  · cases h
    simp
  · cases h

/-- The effect of every command keeps the invariant. -/
theorem CommandEffect.inv {i : Instr} {s u : State} (h : CommandEffect s i u) (hs : s.Inv) : u.Inv := by
  cases h with
  | keep => exact hs
  | reset => exact inv_reset ..
  | flush => exact { hs with fifo := Nat.zero_le _ }
  | clrovr => exact { hs with }
  | ckclr => exact { hs with sums := by simp }
  | ckadd b => exact { hs with sums := ⟨add255_le .., add255_le ..⟩ }
  | startNothing m idle =>
    exact { hs with
      message := by simp [State.messageOk]
      result := by simp [State.resultOk] }
  | startRead m idle =>
    exact { hs with
      reader := by simp [State.readerOk]
      message := by simp [State.messageOk] }
  | txbclr => exact { hs with build := Nat.zero_le _ }
  | txbpush b room => exact { hs with build := by have := hs.build; simp; omega }
  | txsend => exact { hs with build := Nat.zero_le _ }
  | bmloadFails => exact { hs with bitmap := Nat.zero_le _, fields := nofun }
  | bmload start count bytes range =>
    have hlen := toBitMap_length range
    exact { hs with
      bitmap := show bytes.length ≤ 255 by omega
      fields := nofun }
  | fldapplyFails => exact { hs with fields := nofun }
  | fldapply t j names b table entry =>
    exact { hs with fields := fun _ => ⟨names, List.mem_of_getElem? table, b, List.mem_of_getElem? entry, rfl⟩ }

/-! ## The invariant and the events -/

/-- R140: a byte is received only where there is room for it. -/
theorem State.Inv.receive {s : State} (h : s.Inv) (b : Byte) : (s.receive b).Inv := by
  unfold State.receive
  split
  · next room => exact { h with fifo := by simp; omega }
  · exact { h with }

/-- R28: no message is held while a read is in progress. -/
theorem State.Inv.msg_nil {s : State} (h : s.Inv) (hst : s.rdSt ≠ .idle) : s.msg = [] :=
  h.message.2 fun hidle => hst hidle.1

/-- R138: a read may end in a framing error that R41 lists. -/
theorem State.Inv.frameError {s : State} (h : s.Inv) (hst : s.rdSt ≠ .idle) {code : Status} {info : BitVec 24}
    (hc : code ≠ .ok) (hres : (s.frameError code info).resultOk) : (s.frameError code info).Inv :=
  { h with
    fifo := Nat.zero_le _
    reader := by simp [State.readerOk]
    message := by simp [State.messageOk, hc, h.msg_nil hst]
    result := hres }

/-- R141: a read that waits for the delimiter may end with no message. -/
theorem State.Inv.noMessage {s : State} (h : s.Inv) (hst : s.rdSt = .waitDelim) : (s.complete .noMessage 0#24).Inv :=
  { h with
    reader := by
      obtain ⟨-, -, hfb⟩ := h.reader.2.1 hst
      simp [State.readerOk, hfb]
    message := by simp [State.messageOk, h.msg_nil (by simp [hst])]
    result := by simp [State.resultOk] }

/-- R41: a code whose info is one byte. -/
theorem zext24_toNat (b : Byte) : (zext24 b).toNat = b.toNat := by
  simp [zext24]
  omega

/-- Zero-extension tells bytes apart. -/
theorem zext24_inj {a b : Byte} : zext24 a = zext24 b ↔ a = b := by
  rw [← BitVec.toNat_inj, zext24_toNat, zext24_toNat, BitVec.toNat_inj]

/-- R77: a bad escape is neither of the two bytes that may follow 0x7D. -/
theorem escapedByte_eq_none {x : Byte} : escapedByte x = none ↔ x ≠ 0x5E#8 ∧ x ≠ 0x5D#8 := by
  unfold escapedByte
  by_cases h : x = 0x5E#8
  · simp [h]
  · by_cases h2 : x = 0x5D#8 <;> simp [h, h2]

/-- R41: the layout of FE_UNEXPECTED. -/
theorem resultOk_unexpected (s : State) {b : Byte} (h : b ≠ 0x7E#8) :
    (s.frameError .feUnexpected (zext24 b)).resultOk := by
  have h7E : zext24 b ≠ 0x7E#24 := fun e => h (zext24_inj.mp e)
  have hlt : b.toNat < 256 := b.isLt
  simp [State.resultOk, zext24_toNat, h7E, hlt]

/-- R41: the layout of FE_BADESC. -/
theorem resultOk_badesc (s : State) {b : Byte} (h : escapedByte b = none) :
    (s.frameError .feBadesc (zext24 b)).resultOk := by
  obtain ⟨h5E, h5D⟩ := escapedByte_eq_none.mp h
  have h5E' : zext24 b ≠ 0x5E#24 := fun e => h5E (zext24_inj.mp e)
  have h5D' : zext24 b ≠ 0x5D#24 := fun e => h5D (zext24_inj.mp e)
  have hlt : b.toNat < 256 := b.isLt
  simp [State.resultOk, zext24_toNat, h5E', h5D', hlt]

/-- R27: at most 257 bytes stand in FB. -/
theorem State.Inv.fb_length {s : State} (h : s.Inv) (st : s.rdSt = .readLen ∨ s.rdSt = .readBody) :
    s.fb.length ≤ 257 := by
  rcases st with st | st
  · simp [(h.reader.2.2.1 st).2]
  · obtain ⟨hpos, -, hlen⟩ := h.reader.2.2.2 st
    have := s.rdLen.isLt
    omega

/-- R41: the three fields of FE_TRUNCATED's info. -/
theorem truncatedInfo_fields (s : State) :
    (truncatedInfo s).extractLsb' 17 7 = 0#7 ∧ (truncatedInfo s).extractLsb' 9 7 = 0#7 ∧
      (truncatedInfo s).extractLsb' 0 9 = BitVec.ofNat 9 s.fb.length := by
  unfold truncatedInfo
  refine ⟨?_, ?_, ?_⟩
  · rw [BitVec.extractLsb'_append_eq_of_le (by omega), BitVec.extractLsb'_append_eq_of_le (by omega),
      BitVec.extractLsb'_append_eq_of_le (by omega)]
    rfl
  · rw [BitVec.extractLsb'_append_eq_of_le (by omega), BitVec.extractLsb'_append_eq_of_add_le (by omega)]
    rfl
  · rw [BitVec.extractLsb'_append_eq_of_add_le (by omega)]
    simp

/-- R41, R141: the layout of FE_TRUNCATED. -/
theorem resultOk_truncated {s : State} (h : s.fb.length ≤ 257) :
    (s.frameError .feTruncated (truncatedInfo s)).resultOk := by
  obtain ⟨hhigh, hmid, hlow⟩ := truncatedInfo_fields s
  simp [State.resultOk, hhigh, hmid, hlow]
  omega

/-- R41: the layout of CKERR. -/
theorem ckerr_info_lt (lo hi : Byte) : (0x00#8 ++ hi ++ lo : BitVec 24).toNat < 65536 := by
  have hlo := lo.isLt
  have hhi := hi.isLt
  simp only [BitVec.toNat_append, Nat.shiftLeft_eq, BitVec.toNat_ofNat]
  exact Nat.or_lt_two_pow (n := 16) (by simp; omega) (by omega)

/-- R135: the length byte is accepted. -/
theorem State.Inv.acceptLen {s : State} (h : s.Inv) (st : s.rdSt = .readLen) (d : Byte) :
    (s.acceptLen d).Inv :=
  { h with
    reader := by
      have := d.isLt
      simp [State.readerOk]
      omega
    message := by simp [State.messageOk, h.msg_nil (by simp [st])] }

/-- R136: a byte of the body before the last one is accepted. -/
theorem State.Inv.acceptMid {s : State} (h : s.Inv) (st : s.rdSt = .readBody) (hrem : 2 ≤ s.rdRem.toNat) (d : Byte) :
    State.Inv { s with fb := s.fb ++ [d], rdRem := s.rdRem - 1#9 } := by
  obtain ⟨-, hhead, hlen⟩ := h.reader.2.2.2 st
  have hpred := rem_pred (r := s.rdRem) (by omega)
  exact { h with
    reader := by
      simp [State.readerOk, st, hpred, List.head?_append, hhead]
      omega }

/-- R137, R144: a verified body, `MSG[0] + 1` bytes long, becomes the message. -/
theorem State.Inv.verified {s : State} (h : s.Inv) {body : List Byte} (hhead : body.head? = some s.rdLen)
    (hlen : body.length = s.rdLen.toNat + 1) :
    State.Inv { s with
      fb := [], rdEsc := false, rdRem := 0#9, rdSt := .idle, msg := body, rdRes := ⟨.ok, BitVec.ofNat 24 body.length⟩ } :=
  have hlt := s.rdLen.isLt
  have hinfo : (BitVec.ofNat 24 body.length).toNat = body.length := by simp; omega
  { h with
    reader := by simp [State.readerOk]
    message := by simp [State.messageOk, List.headD_eq_head?_getD, hhead, hlen]; omega
    result := by simp [State.resultOk, hinfo]; omega }

/-- R137, R139: a frame whose checksum does not match is given up. -/
theorem State.Inv.checksumError {s : State} (h : s.Inv) (hst : s.rdSt ≠ .idle) (lo hi : Byte) :
    State.Inv { s with
      fb := [], rdEsc := false, rdRem := 0#9, rdSt := .idle, rdRes := ⟨.ckerr, 0x00#8 ++ hi ++ lo⟩ } :=
  { h with
    reader := by simp [State.readerOk]
    message := by simp [State.messageOk, h.msg_nil hst]
    result := ⟨by simp, by simp, by simp, by simp, by simp, by simp, fun _ => ckerr_info_lt lo hi⟩ }

/-- R26, R27: before the last byte FB holds the length byte, the rest of the body and the first checksum byte. -/
theorem State.Inv.fb_lastByte {s : State} (h : s.Inv) (st : s.rdSt = .readBody) (hrem : s.rdRem = 1#9) :
    ∃ body lo, s.fb = body ++ [lo] ∧ body.head? = some s.rdLen ∧ body.length = s.rdLen.toNat + 1 := by
  obtain ⟨-, hhead, hlen⟩ := h.reader.2.2.2 st
  rcases List.eq_nil_or_concat s.fb with hfb | ⟨body, lo, hfb⟩
  · simp [hfb] at hhead
  · rw [List.concat_eq_append] at hfb
    have hbody : body.length = s.rdLen.toNat + 1 := by simp [hfb, hrem] at hlen; omega
    refine ⟨body, lo, hfb, ?_, hbody⟩
    cases body with
    | nil => simp at hbody
    | cons b body => simpa [hfb] using hhead

/-- R135, R136, R137: from the invariant a byte delivered inside a frame is accepted, and keeps it. -/
theorem State.Inv.accept {s : State} (h : s.Inv) (st : s.rdSt = .readLen ∨ s.rdSt = .readBody) (d : Byte) :
    ∃ t, s.accept d = .next t ∧ t.Inv := by
  rcases st with st | st
  · exact ⟨_, accept_len st, h.acceptLen st d⟩
  by_cases hrem : 2 ≤ s.rdRem.toNat
  · exact ⟨_, accept_mid st hrem, h.acceptMid st hrem d⟩
  · obtain ⟨hpos, -⟩ := h.reader.2.2.2 st
    have hone : s.rdRem = 1#9 := BitVec.eq_of_toNat_eq (by simp; omega)
    obtain ⟨body, lo, hfb, hhead, hlen⟩ := h.fb_lastByte st hone
    rw [accept_last st hone hfb]
    split
    · exact ⟨_, rfl, h.verified hhead hlen⟩
    · exact ⟨_, rfl, h.checksumError (by simp [st]) lo d⟩

/-- R24: inside a frame the escape flag is free. -/
theorem State.Inv.setEsc {s : State} (h : s.Inv) (st : s.rdSt = .readLen ∨ s.rdSt = .readBody) (e : Bool) :
    State.Inv { s with rdEsc := e } :=
  { h with
    reader := by
      obtain ⟨-, -, hlen, hbody⟩ := h.reader
      rcases st with st | st
      · simpa [State.readerOk, st] using hlen st
      · simpa [State.readerOk, st] using hbody st }

/-- From the invariant every move of the reader gives a next state, and keeps it. -/
theorem ReaderMove.inv {s : State} {o : Host.Outcome State Fault Refusal} (h : ReaderMove s o) (hs : s.Inv) :
    ∃ t, o = .next t ∧ t.Inv := by
  have hst := h.rdSt_ne_idle
  cases h with
  | nothing st _ out => exact ⟨_, out, (hs.noMessage st).silent⟩
  | truncated st _ out =>
    exact ⟨_, out, (hs.frameError hst (by decide) (resultOk_truncated (hs.fb_length st))).silent⟩
  | opened rest st fifo out =>
    obtain ⟨-, hrem, -⟩ := hs.reader.2.1 st
    refine ⟨_, out, { hs.popped with reader := by simp [State.readerOk, hrem], message := ?_ }⟩
    simp [State.messageOk, hs.msg_nil hst]
  | unexpected b rest st fifo ne out =>
    exact ⟨_, out, hs.popped.frameError hst (by decide) (resultOk_unexpected _ ne)⟩
  | badEscape b rest st esc fifo bad out =>
    exact ⟨_, out, hs.popped.frameError hst (by decide) (resultOk_badesc _ bad)⟩
  | escape rest st esc fifo out =>
    exact ⟨_, out, hs.popped.setEsc st true⟩
  | deliver b d rest st fifo out =>
    obtain ⟨t, ht, hinv⟩ := (hs.popped.setEsc st false).accept st d
    exact ⟨t, out.trans ht, hinv⟩

end Sys2Proof.Machine

/-! SUPPORT. The statements about the state, the step and the invariant
(spec/10_state.md, spec/70_reset_and_hazards.md). -/

namespace Sys2Proof.Machine

/-! ## Every step keeps the invariant -/

/-- Every instruction keeps the invariant. -/
theorem exec_inv {i : Instr} {s t : State} (hs : s.Inv) (h : exec i s = .next t) : t.Inv := by
  rcases exec_next_cases h with ⟨u, st, d, rfl, heff⟩ | ⟨b, rfl, rfl⟩ | ⟨-, hmove⟩
  · exact (heff.inv hs).respond st d
  · exact (hs.receive b).silent
  · obtain ⟨_, ht, hinv⟩ := hmove.inv hs
    cases ht
    exact hinv

/-- Settles O52: each instruction keeps the invariant, and so does the answer to a word that spells none. -/
theorem everyStepKeepsTheInvariant : Obligations.EveryStepKeepsTheInvariant := by
  intro s t hs h
  obtain ⟨a, ⟨i, hi⟩ | ⟨st, d, rfl⟩⟩ := step_next_cases h
  · exact exec_inv (hs.agenda a) hi
  · exact (hs.agenda a).respond st d

/-! ## The receive engine and the timeout -/

/-- Under the invariant an enabled engine step gives a next state. -/
theorem exec_rxe_next {s : State} (he : s.rxeEnabled = true) (hs : s.Inv) : ∃ t, exec .rxeStep s = .next t := by
  obtain ⟨t, ht, -⟩ := (readerMove_of_rxeEnabled he).inv hs
  exact ⟨t, ht⟩

/-- Settles O26. -/
theorem rxeStepsExactlyWhereEnabled : Obligations.RxeStepsExactlyWhereEnabled := by
  intro s
  exact ⟨rxeEnabled_iff s, exec_rxe_disabled, exec_rxe_next⟩

/-- One engine step before `k` more. -/
theorem rxeSteps_succ {s t : State} (h : exec .rxeStep s = .next t) (k : Nat) :
    rxeSteps (k + 1) s = rxeSteps k t := by
  simp only [rxeSteps, List.replicate_succ, runInstrs, h]

/-- R43: the engine has no step in IDLE. -/
theorem rxeEnabled_idle {s : State} (h : s.rdSt = .idle) : s.rxeEnabled = false := by
  simp [State.rxeEnabled, h]

/-- R44: the engine comes to rest: each step takes a byte of RXF or ends the read. -/
theorem rxe_rests {s : State} (hs : s.Inv) :
    ∃ k t, k ≤ s.rxf.length + 1 ∧ rxeSteps k s = .next t ∧ t.rxeEnabled = false := by
  induction hn : s.rxf.length using Nat.strong_induction_on generalizing s with
  | _ n ih =>
    cases he : s.rxeEnabled with
    | false => exact ⟨0, s, by omega, rfl, he⟩
    | true =>
      obtain ⟨t, ht, hinv⟩ := (readerMove_of_rxeEnabled he).inv hs
      rcases (ht ▸ readerMove_of_rxeEnabled he).progress with hlt | hidle
      · obtain ⟨k, u, hk, hu, hrest⟩ := ih _ (hn ▸ hlt) hinv rfl
        exact ⟨k + 1, u, by omega, (rxeSteps_succ ht k).trans hu, hrest⟩
      · exact ⟨1, t, by omega, rxeSteps_succ ht 0, rxeEnabled_idle hidle⟩

/-- Settles O37. -/
theorem rxeComesToRest : Obligations.RxeComesToRest := fun _ => rxe_rests

/-- R43: with RXF empty the engine and the timeout are enabled in opposite cases of a read in progress. -/
theorem rxeEnabled_iff_not_timeoutEnabled {s : State} (hst : s.rdSt ≠ .idle) (hx : s.rxf = []) :
    s.rxeEnabled = true ↔ s.timeoutEnabled = false := by
  cases st : s.rdSt with
  | idle => exact absurd st hst
  | readLen | readBody => simp [State.rxeEnabled, State.timeoutEnabled, State.inFrame, hx, st]
  | waitDelim => cases hm : s.rdMode <;> simp [State.rxeEnabled, State.timeoutEnabled, State.inFrame, hx, st, hm]

/-- Settles O35. -/
theorem exactlyOneOfRxeAndTimeoutWhileReading : Obligations.ExactlyOneOfRxeAndTimeoutWhileReading := by
  intro s
  refine ⟨rxeEnabled_iff_not_timeoutEnabled, fun hst hx => ?_, fun hst => ?_⟩
  · exact ⟨(rxeEnabled_iff s).mpr ⟨hst, .inl hx⟩, by simp [State.timeoutEnabled, hx]⟩
  · exact ⟨rxeEnabled_idle hst, by simp [State.timeoutEnabled, State.inFrame, hst]⟩

/-! ## Where a step stops -/

/-- R74: every row of the opcode map builds a command. -/
theorem opcodeRow_isCommand {n : Nat} {r : OpRow} (h : opcodeRow n = some r) (a b c : Byte) :
    (r.build a b c).isCommand = true := by
  unfold opcodeRow at h
  split at h <;> cases h <;> rfl

/-- R74: a host's word spells nothing but a command. -/
theorem decodeCommand_isCommand {w : Word} {i : Instr} (h : decodeCommand w = .ok i) : i.isCommand = true := by
  unfold decodeCommand at h
  split at h
  · cases h
  · next r hr =>
    split at h
    · cases h
      exact opcodeRow_isCommand hr ..
    · cases h

/-- R20: a step in which the host has the turn gives a next state. -/
theorem step_host {s : State} {w : Word} {rest : List Turn} (ha : s.agenda = .host w :: rest) :
    ∃ t, step s = .next t := by
  cases hd : decodeCommand w with
  | error e =>
    simp only [step_turn ha, decodeTurn, hd]
    exact ⟨_, rfl⟩
  | ok i =>
    obtain ⟨u, st, d, hu, -⟩ := exec_command (decodeCommand_isCommand hd) { s with agenda := rest }
    simp only [step_turn ha, decodeTurn, hd, hu]
    exact ⟨_, rfl⟩

/-- The steps that the block can be asked for under the invariant: each gives a next state, or is one of the three that
R43 does not enable. -/
theorem step_next_or_refused {s : State} (hs : s.Inv) :
    (∃ t, step s = .next t) ∨
      (step s = .refused .noTurn ∧ s.agenda = [] ∧ s.rxeEnabled = false) ∨
      (step s = .refused .stepNotEnabled ∧ s.agenda.head? = some .rxe ∧ s.rxeEnabled = false) ∨
      (step s = .refused .stepNotEnabled ∧ s.agenda.head? = some .lineTimeout ∧ s.timeoutEnabled = false) := by
  cases ha : s.agenda with
  | nil =>
    rw [step_no_turn ha]
    cases he : s.rxeEnabled with
    | true => exact .inl (by simpa using exec_rxe_next he hs)
    | false => simp
  | cons turn rest =>
    have hs' := hs.agenda rest
    cases turn with
    | host w => exact .inl (step_host ha)
    | lineByte b => exact .inl ⟨_, step_turn ha⟩
    | lineTimeout =>
      rw [step_turn ha]
      cases he : s.timeoutEnabled with
      | true =>
        obtain ⟨t, ht, -⟩ := (readerMove_of_timeoutEnabled (s := { s with agenda := rest }) he).inv hs'
        exact .inl ⟨t, ht⟩
      | false => exact .inr (.inr (.inr ⟨exec_timeout_disabled (s := { s with agenda := rest }) he, rfl, rfl⟩))
    | rxe =>
      rw [step_turn ha]
      cases he : s.rxeEnabled with
      | true => exact .inl (exec_rxe_next (s := { s with agenda := rest }) he hs')
      | false => exact .inr (.inr (.inl ⟨exec_rxe_disabled (s := { s with agenda := rest }) he, rfl, rfl⟩))

/-- Settles O53. -/
theorem noStepFaultsUnderTheInvariant : Obligations.NoStepFaultsUnderTheInvariant := by
  intro s hs
  rcases step_next_or_refused hs with ⟨t, h⟩ | ⟨h, ha, he⟩ | ⟨h, ha, he⟩ | ⟨h, ha, he⟩ <;> rw [h]
  · exact ⟨nofun, nofun⟩
  all_goals
    refine ⟨nofun, fun r hr => ?_⟩
    cases hr
  · exact .inl ⟨ha, he, rfl⟩
  · exact .inr (.inl ⟨ha, he, rfl⟩)
  · exact .inr (.inr ⟨ha, he, rfl⟩)

/-- R136, R137: an instruction faults only where the last bytes of a frame are not there. -/
theorem exec_fault {i : Instr} {s : State} {f : Fault} (h : exec i s = .fault f) :
    s.rdSt = .readBody ∧ (s.rdRem = 0#9 ∨ (s.rdRem = 1#9 ∧ s.fb = [])) := by
  have hcases := exec_cases i s
  rw [h] at hcases
  rcases hcases with ⟨-, u, st, d, hu, -⟩ | ⟨b, -, hb⟩ | ⟨-, hmove⟩ | ⟨r, hr⟩
  · cases hu
  · cases hb
  · exact hmove.fault
  · cases hr

/-- Settles O54. -/
theorem stopsOfTheReaderAreTheNamedOnes : Obligations.StopsOfTheReaderAreTheNamedOnes := by
  intro i s
  refine ⟨fun hne => exec_timeout_disabled ?_, fun _ _ => exec_wire_not_next, fun _ => exec_fault⟩
  rwa [← timeoutEnabled_iff, Bool.not_eq_true] at hne

/-! ## Who writes what -/

/-- R36: no command writes a parameter. -/
theorem CommandEffect.cfg {i : Instr} {s u : State} (h : CommandEffect s i u) : u.cfg = s.cfg := by
  cases h <;> rfl

/-- R32: only TXSEND writes TXQ: it appends to it, and empties TXB, which held something. -/
theorem CommandEffect.txq {i : Instr} {s u : State} (h : CommandEffect s i u) :
    u.txq = s.txq ∨ (s.txq <+: u.txq ∧ s.txb ≠ [] ∧ u.txb = []) := by
  cases h with
  | txsend held => exact .inr ⟨List.prefix_append .., held, rfl⟩
  | _ => exact .inl rfl

/-- R32, R36: what an instruction does to TXQ and to the parameters. -/
theorem exec_txq_cfg {i : Instr} {s t : State} (h : exec i s = .next t) :
    t.cfg = s.cfg ∧ (t.txq = s.txq ∨ (s.txq <+: t.txq ∧ s.txb ≠ [] ∧ t.txb = [])) := by
  rcases exec_next_cases h with ⟨u, st, d, rfl, heff⟩ | ⟨b, rfl, rfl⟩ | ⟨-, hmove⟩
  · exact ⟨heff.cfg, heff.txq⟩
  · unfold State.receive
    split <;> exact ⟨rfl, .inl rfl⟩
  · exact ⟨hmove.sameUnits.cfg, .inl hmove.sameUnits.txq⟩

/-- Settles O55. -/
theorem transmitStreamOnlyGrowsAndParametersStay : Obligations.TransmitStreamOnlyGrowsAndParametersStay := by
  intro s t h
  obtain ⟨a, ⟨i, hi⟩ | ⟨st, d, rfl⟩⟩ := step_next_cases h
  · obtain ⟨hcfg, hsame | ⟨hgrow, htxb⟩⟩ := exec_txq_cfg hi
    · exact ⟨by rw [hsame], hcfg, fun hne => absurd hsame hne⟩
    · exact ⟨hgrow, hcfg, fun _ => htxb⟩
  · exact ⟨List.prefix_rfl, rfl, fun hne => absurd rfl hne⟩

/-- R30, R31, R33, R34, R35: which instructions may write which element of the other units. -/
structure NamedWriters (i : Instr) (s t : State) : Prop where
  sums : t.ckS1 ≠ s.ckS1 ∨ t.ckS2 ≠ s.ckS2 → i = .ckclr ∨ i = .reset ∨ ∃ b, i = .ckadd b
  txb : t.txb ≠ s.txb → i = .txbclr ∨ i = .txsend ∨ i = .reset ∨ ∃ b, i = .txbpush b
  bm : t.bm ≠ s.bm → i = .reset ∨ ∃ a n, i = .bmload a n
  fo : t.fo ≠ s.fo ∨ (t.foValid = true ∧ s.foValid = false) → i = .reset ∨ ∃ a j, i = .fldapply a j
  ovrSet : t.ovr = true ∧ s.ovr = false → ∃ b, i = .lineRx b
  ovrCleared : t.ovr = false ∧ s.ovr = true → i = .clrovr ∨ i = .reset

/-- R30, R31, R33, R34, R35: among the commands only the named ones write each element. -/
theorem CommandEffect.namedWriters {i : Instr} {s u : State} (h : CommandEffect s i u) : NamedWriters i s u where
  sums hne := by
    cases h with
    | ckclr => exact .inl rfl
    | reset => exact .inr (.inl rfl)
    | ckadd b => exact .inr (.inr ⟨b, rfl⟩)
    | _ => simp at hne
  txb hne := by
    cases h with
    | txbclr => exact .inl rfl
    | txsend => exact .inr (.inl rfl)
    | reset => exact .inr (.inr (.inl rfl))
    | txbpush b => exact .inr (.inr (.inr ⟨b, rfl⟩))
    | _ => simp at hne
  bm hne := by
    cases h with
    | reset => exact .inl rfl
    | bmloadFails start count | bmload start count => exact .inr ⟨start, count, rfl⟩
    | _ => simp at hne
  fo hne := by
    cases h with
    | reset => exact .inl rfl
    | fldapplyFails t j | fldapply t j => exact .inr ⟨t, j, rfl⟩
    | _ => simp at hne
  ovrSet hne := by
    cases h with
    | reset | clrovr => cases hne.1
    | _ => simp at hne
  ovrCleared hne := by
    cases h with
    | clrovr => exact .inl rfl
    | reset => exact .inr rfl
    | _ => simp at hne

/-- R118, R174: what writes none of these elements needs no name. -/
theorem SameUnits.namedWriters {s t : State} (h : SameUnits s t) (i : Instr) : NamedWriters i s t := by
  obtain ⟨hs1, hs2, htxb, -, hbm, hfo, hvalid, hovr, -⟩ := h
  constructor <;> simp +contextual [hs1, hs2, htxb, hbm, hfo, hvalid, hovr]

/-- R140: a received byte can only set OVR. -/
theorem receive_namedWriters (b : Byte) (s : State) : NamedWriters (.lineRx b) s (s.receive b) := by
  unfold State.receive
  split <;> constructor <;> simp +contextual

/-- Settles O56. -/
theorem onlyTheNamedInstructionsWriteEachElement : Obligations.OnlyTheNamedInstructionsWriteEachElement := by
  intro i s t h
  have hw : NamedWriters i s t := by
    rcases exec_next_cases h with ⟨u, st, d, rfl, heff⟩ | ⟨b, rfl, rfl⟩ | ⟨-, hmove⟩
    · exact { heff.namedWriters with }
    · exact { receive_namedWriters b s with }
    · exact hmove.sameUnits.namedWriters i
  exact ⟨hw.sums, hw.txb, hw.bm, hw.fo, hw.ovrSet, hw.ovrCleared⟩

/-- R130, R131: among the commands only RDSTART begins a read, and only RDSTART and RESET write MSG, by emptying it. -/
theorem CommandEffect.read {i : Instr} {s u : State} (h : CommandEffect s i u) :
    (s.rdSt = .idle → u.rdSt ≠ .idle → ∃ m, i = .rdstart m) ∧
      (u.msg = s.msg ∨ (u.msg = [] ∧ (i = .reset ∨ ∃ m, i = .rdstart m))) := by
  cases h with
  | startNothing m | startRead m => exact ⟨fun _ _ => ⟨m, rfl⟩, .inr ⟨rfl, .inr ⟨m, rfl⟩⟩⟩
  | reset => exact ⟨fun _ hne => absurd rfl hne, .inr ⟨rfl, .inl rfl⟩⟩
  | _ => exact ⟨fun hidle hne => absurd hidle hne, .inl rfl⟩

/-- Settles O57. -/
theorem readsBeginWithRdstartAndMessagesWithVerify : Obligations.ReadsBeginWithRdstartAndMessagesWithVerify := by
  intro i s t h
  rcases exec_next_cases h with ⟨u, st, d, rfl, heff⟩ | ⟨b, rfl, rfl⟩ | ⟨hc, hmove⟩
  · obtain ⟨hread, hmsg⟩ := heff.read
    exact ⟨hread, fun hne => .inl (hmsg.resolve_left hne)⟩
  · unfold State.receive
    split <;> exact ⟨fun hidle hne => absurd hidle hne, fun hne => absurd rfl hne⟩
  · refine ⟨fun hidle _ => absurd hidle hmove.rdSt_ne_idle, fun hne => .inr ?_⟩
    obtain ⟨hst, hrem, hidle, hok⟩ := hmove.msg.resolve_left hne
    exact ⟨hst, hrem, hidle, hok, hc⟩

/-! ## What a response shows -/

/-- The response of a step is that of its next state (R72). -/
@[simp] theorem responseOf_next (t : State) : responseOf (.next t) = t.resp := rfl

/-- R140, R141: a move of the reader has no response. -/
theorem ReaderMove.no_response {s : State} {o : Host.Outcome State Fault Refusal} (h : ReaderMove s o) :
    responseOf o = none := by
  cases h with
  | nothing _ _ out | truncated _ _ out | opened _ _ _ out | unexpected _ _ _ _ _ out | escape _ _ _ _ out
    | badEscape _ _ _ _ _ _ out => rw [out]; rfl
  | deliver b d rest _ _ out =>
    cases o with
    | next t =>
      obtain ⟨-, -, -, -, -, -, -, -, -, -, -, -, hresp, -⟩ := accept_frame out.symm
      exact hresp
    | fault f => rfl
    | refused r => rfl

/-- Only a command has a response. -/
theorem responseOf_not_command {i : Instr} (h : i.isCommand = false) (s : State) : responseOf (exec i s) = none := by
  rcases exec_cases i s with ⟨hc, -⟩ | ⟨b, rfl, hb⟩ | ⟨-, hmove⟩ | ⟨r, hr⟩
  · simp [h] at hc
  · rw [hb]; rfl
  · exact hmove.no_response
  · rw [hr]; rfl

/-- The state with other values in the elements that R42 hides from the host. -/
def State.withHidden (fb rxf : List Byte) (len : Byte) (rem : BitVec 9) (s : State) : State :=
  { s with fb := fb, rxf := rxf, rdLen := len, rdRem := rem }

/-- R40: of the hidden elements STATUS shows the length of RXF only. -/
theorem statusView_withHidden {s : State} {fb rxf : List Byte} (len : Byte) (rem : BitVec 9)
    (hlen : rxf.length = s.rxf.length) : (s.withHidden fb rxf len rem).statusView = s.statusView := by
  simp only [State.statusView, State.rxCount, State.withHidden, hlen]
  rfl

/-- R42: no instruction's response shows a hidden element; of RXF a command sees only its length. The commands that answer
without a test come first, then those that test a condition, then those that look something up. -/
theorem responseOf_withHidden (i : Instr) {s : State} {fb rxf : List Byte} (len : Byte) (rem : BitVec 9)
    (hlen : rxf.length = s.rxf.length) :
    responseOf (exec i (s.withHidden fb rxf len rem)) = responseOf (exec i s) := by
  have hempty : rxf = [] ↔ s.rxf = [] := by rw [← List.length_eq_zero_iff, hlen, List.length_eq_zero_iff]
  cases i with
  | nop | reset | flush | clrovr | esc _ | ckclr | ckadd _ | ckrd | msglen | txbclr => rfl
  | status => simp only [exec, execStatus, statusView_withHidden len rem hlen]; rfl
  | ckvfy _ _ | rdres | txbpush _ | txsend | ford _ | pindec _ _ =>
    simp only [exec, execCkvfy, execRdres, execTxbpush, execTxsend, execFord, execPindec, responseOf_next,
      apply_ite State.resp, State.respond_resp]
    rfl
  | rdstart _ =>
    simp only [exec, execRdstart, responseOf_next, apply_ite State.resp, State.respond_resp]
    exact if_congr Iff.rfl rfl (if_congr (and_congr_right fun _ => hempty) rfl rfl)
  | msgrd _ | bmrd _ | bmload _ _ | typesplit | fplookup _ _ _ =>
    simp only [exec, execMsgrd, execBmrd, execBmload, execTypesplit, execFplookup, State.withHidden]
    split <;> rfl
  | unesc _ _ | fldapply _ _ =>
    simp only [exec, execUnesc, execFldapply, State.withHidden]
    split
    · rfl
    · split <;> rfl
  | wireDelim | wireUnexpected _ | wireEsc7E | wireEsc7D | wireBadesc _ | wireLiteral _ | lineRx _ | timeout | rxeStep =>
    rw [responseOf_not_command rfl, responseOf_not_command rfl]

/-- Settles O60: by the command that the word spells; a word that spells none is answered from the word alone. -/
theorem hiddenReaderStateIsNotAnswered : Obligations.HiddenReaderStateIsNotAnswered := by
  intro w s fb rxf len rem hlen
  rw [issue_eq, issue_eq]
  split
  · next i _ => exact responseOf_withHidden i len rem hlen
  · next e _ => cases e <;> rfl

/-! ## The step and the state at power-on -/

/-- Settles O5. -/
theorem stepRunsTheDecodedInstruction : Obligations.StepRunsTheDecodedInstruction := by
  refine ⟨fun s t rest i ha hd => ?_, fun s ha he => ?_, fun s ha he => ?_⟩
  · rw [step_turn ha, hd]
  · rw [step_no_turn ha, if_pos he]
  · simp [step_no_turn ha, he]

/-- Every slot of the field output at power-on (R260). -/
theorem reset_fo (i : Fin 8) : State.reset.fo[i] = ⟨0x0000#16, false⟩ := by
  simp [State.reset]

/-- R261: what RESET leaves differs from the power-on state in TXQ and the model's own fields only. -/
theorem exec_reset_next {s t : State} (h : exec .reset s = .next t) :
    { t with txq := [], cfg := Config.block, agenda := [], resp := none } = State.reset ∧ t.txq = s.txq := by
  cases h
  exact ⟨rfl, rfl⟩

/-- Settles O8: the reset table by evaluation, then what RESET differs from it in. -/
theorem powerOnStateIsTheResetState : Obligations.PowerOnStateIsTheResetState :=
  ⟨rfl, rfl, rfl, rfl, rfl, rfl, rfl, rfl, rfl, rfl, rfl, rfl, rfl, rfl, reset_fo, rfl, rfl, rfl,
    fun _ _ => exec_reset_next⟩

end Sys2Proof.Machine

/-! SUPPORT. Repetition: no instruction sees the response of the step before it, so an idempotent command may be issued
again (R59), and bytes of the line enter RXF one after the other (R140). -/

namespace Sys2Proof.Machine

/-! ## The response is write-only -/

/-- R72: no instruction sees the response of the step before it. -/
theorem exec_withResp (i : Instr) (s : State) (r : Option Word) : exec i { s with resp := r } = exec i s := by
  cases i with
  | lineRx b =>
    simp only [exec, execLineRx, State.receive]
    split <;> rfl
  | _ => rfl

/-! ## Repeating an idempotent command -/

/-- R59: only commands are idempotent. -/
theorem isCommand_of_idempotent {i : Instr} (h : idempotentCommand i = true) : i.isCommand = true := by
  cases i with
  | wireDelim | wireUnexpected _ | wireEsc7E | wireEsc7D | wireBadesc _ | wireLiteral _ | lineRx _ | timeout | rxeStep =>
    cases h
  | _ => rfl

/-- R189: FLDAPPLY writes neither the ROM nor the bitmap, so it finds the same table and the same entry again. -/
theorem exec_fldapply_again {t j : Byte} {s u : State} (h : exec (.fldapply t j) s = .next u) :
    exec (.fldapply t j) u = exec (.fldapply t j) s := by
  cases table : s.cfg.ft[t.toNat]? with
  | none =>
    simp only [exec, execFldapply, table] at h
    cases h
    exact exec_withResp ..
  | some names =>
    cases entry : s.bm[j.toNat]? with
    | none | some b =>
      simp only [exec, execFldapply, table, entry] at h
      cases h
      simp only [exec, execFldapply, State.respond, table, entry]

/-- R59: an idempotent command finds what it needs again in the state that it leaves, and has the same effect there. -/
theorem CommandEffect.exec_again {i : Instr} {s u : State} {st : Status} {d : BitVec 24} (heff : CommandEffect s i u)
    (hi : idempotentCommand i = true) (h : exec i s = .next (u.respond st d)) :
    exec i (u.respond st d) = exec i s := by
  cases heff with
  | keep => exact exec_withResp ..
  | reset | flush | clrovr | ckclr | txbclr | bmloadFails | bmload => rfl
  | fldapplyFails | fldapply => exact exec_fldapply_again h
  | ckadd | startNothing | startRead | txbpush | txsend => cases hi

/-- Settles O58: the command's effect, then the same effect again. -/
theorem idempotentCommandsRepeatToTheSame : Obligations.IdempotentCommandsRepeatToTheSame := by
  intro i s t hi h
  obtain ⟨u, st, d, hu, heff⟩ := exec_command (isCommand_of_idempotent hi) s
  obtain rfl : t = u.respond st d := by simpa [h] using hu
  rw [heff.exec_again hi h, h]

/-! ## Bytes of the line -/

/-- R61, R140: the state after a sequence of received bytes, its response left out. -/
def State.receiveAll (bytes : List Byte) (s : State) : State :=
  { s with
    rxf := (s.rxf ++ bytes).take s.cfg.rxDepth
    ovr := s.ovr || decide (s.cfg.rxDepth < s.rxf.length + bytes.length) }

/-- With no byte received a FIFO within its bound stays as it is. -/
theorem receiveAll_nil {s : State} (hs : s.rxf.length ≤ s.cfg.rxDepth) : s.receiveAll [] = s := by
  simp [State.receiveAll, List.take_of_length_le hs, Nat.not_lt.mpr hs]

/-- R21: a received byte keeps RXF within its bound. -/
theorem receive_fifo {s : State} (b : Byte) (hs : s.rxf.length ≤ s.cfg.rxDepth) :
    (s.receive b).rxf.length ≤ (s.receive b).cfg.rxDepth := by
  unfold State.receive
  split
  · next room => simpa using room
  · exact hs

/-- R140: where there is room the first byte stands before the others; where there is none RXF is full already, and OVR is
set whatever follows. -/
theorem receiveAll_receive {s : State} (b : Byte) (bytes : List Byte) (hs : s.rxf.length ≤ s.cfg.rxDepth) :
    (s.receive b).receiveAll bytes = s.receiveAll (b :: bytes) := by
  unfold State.receive
  split
  · simp [State.receiveAll, Nat.add_assoc, Nat.add_comm 1]
  · next full =>
    have hlen : s.rxf.length = s.cfg.rxDepth := by omega
    simp [State.receiveAll, ← hlen]

/-- R140: the line's bytes one after the other, from a state with no response. -/
theorem runInstrs_lineBytes {bytes : List Byte} {s : State} (hs : s.rxf.length ≤ s.cfg.rxDepth) :
    runInstrs (lineBytes bytes) s.silent = .next (s.receiveAll bytes).silent := by
  induction bytes generalizing s with
  | nil => rw [receiveAll_nil hs]; rfl
  | cons b bytes ih =>
    calc runInstrs (lineBytes (b :: bytes)) s.silent
      _ = runInstrs (lineBytes bytes) (s.silent.receive b).silent := rfl
      _ = .next ((s.silent.receive b).receiveAll bytes).silent := ih (receive_fifo b hs)
      _ = .next (s.receiveAll (b :: bytes)).silent := by rw [receiveAll_receive (s := s.silent) b bytes hs]; rfl

/-- Settles O36: the first byte leaves no response of an earlier step. -/
theorem lineBytesEnterInOrderUntilFull : Obligations.LineBytesEnterInOrderUntilFull := by
  intro bytes s hne hs
  obtain ⟨b, rest, rfl⟩ := List.exists_cons_of_ne_nil hne
  have hsilent : runInstrs (lineBytes (b :: rest)) s = runInstrs (lineBytes (b :: rest)) s.silent := by
    simp only [lineBytes, List.map_cons, runInstrs, State.silent, exec_withResp]
  exact hsilent.trans (runInstrs_lineBytes hs)

end Sys2Proof.Machine

/-! SUPPORT. The code of an instruction (spec/30_encoding.md R70, R71, R74, R77): encoding and decoding are inverse to each
other, for command words by the rows of the opcode map, for wire symbols by their bytes. -/

namespace Sys2Proof

/-! ## Reserved bits (R71) -/

/-- R131: a byte of RDSTART has no reserved bit set exactly when it is the byte of the mode that it spells. -/
theorem reservedA_mode (a : Byte) : a &&& 0xFE#8 = 0#8 ↔ modeByte (modeOfBit a) = a := by
  revert a
  decide

/-- R191: a byte of FORD has no reserved bit set exactly when it is the index that its low three bits spell. -/
theorem reservedA_index (a : Byte) : a &&& 0xF8#8 = 0#8 ↔ (a.extractLsb' 0 3).setWidth 8 = a := by
  revert a
  decide

/-- R71: a command without operands has every field zero. -/
theorem reserved_noOperand {op a b c : Byte} :
    packWord op a b c &&& 0x00FFFFFF#32 = 0#32 ↔ a = 0#8 ∧ b = 0#8 ∧ c = 0#8 :=
  (packWord_and_reserved op a b c 0xFF#8 0xFF#8 0xFF#8).trans (by simp only [byte_and_ones])

/-- R71: a command with the operand A has the fields B and C zero. -/
theorem reserved_operandA {op a b c : Byte} : packWord op a b c &&& 0x0000FFFF#32 = 0#32 ↔ b = 0#8 ∧ c = 0#8 :=
  (packWord_and_reserved op a b c 0x00#8 0xFF#8 0xFF#8).trans (by simp)

/-- R71: a command with the operands A and B has the field C zero. -/
theorem reserved_operandsAB {op a b c : Byte} : packWord op a b c &&& 0x000000FF#32 = 0#32 ↔ c = 0#8 :=
  (packWord_and_reserved op a b c 0x00#8 0x00#8 0xFF#8).trans (by simp)

/-- R71, R131: RDSTART has the mode in A, and the fields B and C zero. -/
theorem reserved_mode {op a b c : Byte} :
    packWord op a b c &&& 0x00FEFFFF#32 = 0#32 ↔ modeByte (modeOfBit a) = a ∧ b = 0#8 ∧ c = 0#8 :=
  (packWord_and_reserved op a b c 0xFE#8 0xFF#8 0xFF#8).trans (by simp only [byte_and_ones, reservedA_mode])

/-- R71, R191: FORD has the index in A, and the fields B and C zero. -/
theorem reserved_index {op a b c : Byte} :
    packWord op a b c &&& 0x00F8FFFF#32 = 0#32 ↔ (a.extractLsb' 0 3).setWidth 8 = a ∧ b = 0#8 ∧ c = 0#8 :=
  (packWord_and_reserved op a b c 0xF8#8 0xFF#8 0xFF#8).trans (by simp only [byte_and_ones, reservedA_index])

/-! ## Command words (R74) -/

/-- The index of FORD is read back from the byte that it is written in. -/
@[simp] theorem extractLsb'_setWidth_index (i : BitVec 3) : (i.setWidth 8 : Byte).extractLsb' 0 3 = i := by
  revert i
  decide

/-- R74: a word of a row with no reserved bit set decodes to what the row builds from its fields. -/
theorem decode_packWord {op a b c : Byte} {r : OpRow} {i : Instr} (hr : opcodeRow op.toNat = some r)
    (hz : packWord op a b c &&& r.reserved = 0#32) (hi : r.build a b c = i) :
    decode (.turn (.host (packWord op a b c))) = .ok i := by
  simp only [decode, decodeTurn, decodeCommand_packWord, hr, if_pos hz, hi]

/-- R74: what a row builds from a word with no reserved bit set is encoded as that word. The cases are the
rows without operands, those with the operand A, with A and B, with A, B and C, RDSTART's and FORD's. -/
theorem encode_build {n : Nat} {r : OpRow} (hr : opcodeRow n = some r) {a b c : Byte}
    (hz : packWord (BitVec.ofNat 8 n) a b c &&& r.reserved = 0#32) :
    encode (r.build a b c) = .turn (.host (packWord (BitVec.ofNat 8 n) a b c)) := by
  unfold opcodeRow at hr
  split at hr <;> cases hr
  case h_1 | h_2 | h_3 | h_4 | h_5 | h_8 | h_10 | h_13 | h_15 | h_16 | h_18 | h_23 =>
    obtain ⟨rfl, rfl, rfl⟩ := reserved_noOperand.mp hz
    rfl
  case h_6 | h_9 | h_14 | h_17 | h_20 =>
    obtain ⟨rfl, rfl⟩ := reserved_operandA.mp hz
    rfl
  case h_7 | h_11 | h_19 | h_21 | h_25 =>
    obtain rfl := reserved_operandsAB.mp hz
    rfl
  case h_24 => rfl
  case h_12 =>
    obtain ⟨hmode, rfl, rfl⟩ := reserved_mode.mp hz
    simp only [encode, hmode]
  case h_22 =>
    obtain ⟨hindex, rfl, rfl⟩ := reserved_index.mp hz
    simp only [encode, hindex]

/-- R77 limits wire symbols only, so that every command is well formed. -/
theorem wf_of_isCommand {i : Instr} (h : i.isCommand = true) : i.wf = true := by
  cases i with
  | wireUnexpected _ | wireBadesc _ | wireLiteral _ => cases h
  | _ => rfl

/-- R70: a word whose OP has a row and which has no reserved bit set is the code of what the row builds. -/
theorem encode_build_fields {w : Word} {r : OpRow} (hr : opcodeRow (fieldOP w).toNat = some r)
    (hz : w &&& r.reserved = 0#32) : encode (r.build (fieldA w) (fieldB w) (fieldC w)) = .turn (.host w) := by
  have hw : packWord (BitVec.ofNat 8 (fieldOP w).toNat) (fieldA w) (fieldB w) (fieldC w) = w := by
    rw [BitVec.ofNat_toNat, BitVec.setWidth_eq, packWord_fields]
  rw [encode_build hr (by rw [hw, hz]), hw]

/-- What the decoder accepts, by the row of the word's OP (R71, R74). -/
theorem decodeCommand_eq_ok {w : Word} {i : Instr} :
    decodeCommand w = .ok i ↔
      ∃ r, opcodeRow (fieldOP w).toNat = some r ∧ w &&& r.reserved = 0#32 ∧
        r.build (fieldA w) (fieldB w) (fieldC w) = i := by
  unfold decodeCommand
  split
  · next hr => simp [hr]
  · next r hr =>
    split <;> next hz => simp [hr, hz]

/-- R70, R74: a word that spells a command is the code of that command. -/
theorem encode_of_decodeCommand {w : Word} {i : Instr} (h : decodeCommand w = .ok i) : encode i = .turn (.host w) := by
  obtain ⟨r, hr, hz, rfl⟩ := decodeCommand_eq_ok.mp h
  exact encode_build_fields hr hz

/-! ## Wire symbols (R77) -/

/-- R77: the first symbol of the line's bytes keeps the side conditions of its row, and its code is the bytes taken. -/
theorem decodeWire_splits {ctx : WireCtx} {bytes rest : List Byte} {i : Instr}
    (h : decodeWire ctx bytes = .ok (i, rest)) :
    ∃ symbol, bytes = symbol ++ rest ∧ encode i = .wire ctx symbol ∧ i.wf = true := by
  unfold decodeWire at h
  split at h
  · cases h
  · next b tail =>
    cases h
    refine ⟨[b], rfl, ?_⟩
    by_cases hb : b = 0x7E#8 <;> simp [hb, encode, Instr.wf]
  · next b tail =>
    split at h
    · next hb =>
      subst hb
      split at h
      · cases h
      · next x tail' =>
        cases h
        refine ⟨[0x7D#8, x], rfl, ?_⟩
        by_cases h5E : x = 0x5E#8
        · simp [h5E, encode, Instr.wf]
        · by_cases h5D : x = 0x5D#8 <;> simp [h5E, h5D, encode, Instr.wf]
    · next hb =>
      cases h
      exact ⟨[b], rfl, rfl, decide_eq_true hb⟩

/-- R77: bytes are one symbol exactly when no byte is left after their first symbol. -/
theorem decodeSymbol_eq_ok {ctx : WireCtx} {bytes : List Byte} {i : Instr} :
    decodeSymbol ctx bytes = .ok i ↔ decodeWire ctx bytes = .ok (i, []) := by
  unfold decodeSymbol
  split <;> next h => simp [h]

/-- R77: bytes that are one wire symbol are the code of that symbol, which keeps the side conditions of its row. -/
theorem encode_of_decodeSymbol {ctx : WireCtx} {bytes : List Byte} {i : Instr} (h : decodeSymbol ctx bytes = .ok i) :
    encode i = .wire ctx bytes ∧ i.wf = true := by
  obtain ⟨symbol, rfl, hcode⟩ := decodeWire_splits (decodeSymbol_eq_ok.mp h)
  rwa [List.append_nil]

/-! ## The two round trips -/

/-- Settles O1: a command by the row of its opcode, its reserved fields written as zero; a wire symbol by the side
conditions of its row. -/
theorem decodeOfEncodeGivesTheInstruction : Obligations.DecodeOfEncodeGivesTheInstruction := by
  intro i hwf
  cases i with
  | nop | reset | flush | status | clrovr | ckclr | ckrd | rdres | msglen | txbclr | txsend | typesplit =>
    exact decode_packWord rfl (reserved_noOperand.mpr ⟨rfl, rfl, rfl⟩) rfl
  | esc _ | ckadd _ | msgrd _ | txbpush _ | bmrd _ => exact decode_packWord rfl (reserved_operandA.mpr ⟨rfl, rfl⟩) rfl
  | unesc _ _ | ckvfy _ _ | bmload _ _ | fldapply _ _ | pindec _ _ =>
    exact decode_packWord rfl (reserved_operandsAB.mpr rfl) rfl
  | fplookup _ _ _ => exact decode_packWord rfl BitVec.and_zero rfl
  | rdstart mode => exact decode_packWord rfl (reserved_mode.mpr ⟨by simp, rfl, rfl⟩) (by simp)
  | ford k => exact decode_packWord rfl (reserved_index.mpr ⟨by simp, rfl, rfl⟩) (by simp)
  | wireUnexpected x | wireLiteral x =>
    have hx := of_decide_eq_true hwf
    simp [decode, encode, decodeSymbol, decodeWire, hx]
  | wireBadesc x =>
    obtain ⟨h5E, h5D⟩ : x ≠ 0x5E#8 ∧ x ≠ 0x5D#8 := by simpa [Instr.wf] using hwf
    simp [decode, encode, decodeSymbol, decodeWire, h5E, h5D]
  | wireDelim | wireEsc7E | wireEsc7D | lineRx _ | timeout | rxeStep => rfl

/-- Settles O2: by the form of the code, an agent's turn or the bytes of a wire symbol. -/
theorem encodeOfDecodeGivesTheCode : Obligations.EncodeOfDecodeGivesTheCode := by
  intro c i h
  cases c with
  | turn t =>
    cases t with
    | host w =>
      cases hw : decodeCommand w with
      | error e => simp [decode, decodeTurn, hw] at h
      | ok j =>
        obtain rfl : j = i := by simpa [decode, decodeTurn, hw] using h
        exact ⟨encode_of_decodeCommand hw, wf_of_isCommand (Machine.decodeCommand_isCommand hw)⟩
    | lineByte b | lineTimeout | rxe => cases h; exact ⟨rfl, rfl⟩
  | wire ctx bytes =>
    cases hs : decodeSymbol ctx bytes with
    | error e => simp [decode, hs] at h
    | ok j =>
      obtain rfl : j = i := by simpa [decode, hs] using h
      exact encode_of_decodeSymbol hs

/-! ## Words of the spec -/

/-- Settles O3. -/
theorem wordsOfTheSpecDecode : Obligations.WordsOfTheSpecDecode := by
  unfold Obligations.WordsOfTheSpecDecode
  decide

end Sys2Proof

namespace Sys2Proof.Machine

/-! ## Every command word -/

/-- R225: a word whose OP has no row. -/
theorem issue_unassigned {w : Word} (hr : opcodeRow (fieldOP w).toNat = none) (s : State) :
    issue w s = answers s 0x40#8 0#24 := by
  simp only [issue_eq, decodeCommand, hr]
  rfl

/-- R226: a word whose OP has a row and which has a reserved bit set. -/
theorem issue_reserved {w : Word} {r : OpRow} (hr : opcodeRow (fieldOP w).toNat = some r) (hz : w &&& r.reserved ≠ 0#32)
    (s : State) : issue w s = answers s 0x41#8 0#24 := by
  simp only [issue_eq, decodeCommand, hr, if_neg hz]
  rfl

/-- Settles O4: the list is the opcode map of the decoder, row by row. -/
theorem opcodeMapDecidesEveryWord : Obligations.OpcodeMapDecidesEveryWord := by
  unfold Obligations.OpcodeMapDecidesEveryWord
  intro rows w s
  have listed : ∀ n row, opcodeRow n = some row → (BitVec.ofNat 8 n, row.reserved) ∈ rows := by
    intro n row h
    unfold opcodeRow at h
    split at h <;> cases h <;> decide
  have assigned : ∀ r ∈ rows, (opcodeRow r.1.toNat).map OpRow.reserved = some r.2 := by simp [rows, opcodeRow]
  have row_of {r : Byte × Word} (hr : r ∈ rows) (hop : w.extractLsb' 24 8 = r.1) :
      ∃ row, opcodeRow (fieldOP w).toNat = some row ∧ row.reserved = r.2 := by
    rw [fieldOP, hop]
    exact Option.map_eq_some_iff.mp (assigned r hr)
  refine ⟨fun hne => ?_, fun r hr hop hz => ?_, fun r hr hop hz => ?_⟩
  · refine issue_unassigned (Option.eq_none_iff_forall_ne_some.mpr fun row h => hne _ (listed _ row h) ?_) s
    rw [BitVec.ofNat_toNat, BitVec.setWidth_eq, fieldOP]
  · obtain ⟨row, hrow, hres⟩ := row_of hr hop
    exact issue_reserved hrow (hres ▸ hz) s
  · obtain ⟨row, hrow, hres⟩ := row_of hr hop
    have hd := decodeCommand_eq_ok.mpr ⟨row, hrow, hres ▸ hz, rfl⟩
    exact ⟨_, hd, encode_of_decodeCommand hd, by rw [issue_eq, hd]⟩

end Sys2Proof.Machine

/-! SUPPORT. The pseudo-instructions of spec/30_encoding.md R83: CKSEQ and TXFRAME, by induction over their bytes; and the
control replies of R80. -/

namespace Sys2Proof.Machine

/-! ## CKSEQ -/

/-- R30, R115: the state in which the accumulator holds the sums `p` and the response says so. -/
def State.answerSums (p : Byte × Byte) (s : State) : State :=
  { s with ckS1 := p.1, ckS2 := p.2, resp := some (0x00#8 ++ (0x00#8 ++ p.2 ++ p.1)) }

/-- R113: CKCLR answers the sums of no byte. -/
theorem exec_ckclr (s : State) : exec .ckclr s = .next (s.answerSums (0#8, 0#8)) := rfl

/-- R114: CKADD answers the sums of one more byte. -/
theorem exec_ckadd (p : Byte × Byte) (b : Byte) (s : State) :
    exec (.ckadd b) (s.answerSums p) = .next (s.answerSums (ckStep p b)) := rfl

/-- R114: CKADDs one after the other fold the step of the sums over their bytes. -/
theorem runInstrs_ckadd (bytes : List Byte) (p : Byte × Byte) (s : State) :
    runInstrs (bytes.map .ckadd) (s.answerSums p) = .next (s.answerSums (bytes.foldl ckStep p)) := by
  induction bytes generalizing p with
  | nil => rfl
  | cons b bytes ih => simp only [List.map_cons, runInstrs, exec_ckadd, List.foldl_cons, ih]

/-- Settles O18. -/
theorem ckseqComputesTheFletcherSums : Obligations.CkseqComputesTheFletcherSums := by
  intro bytes s
  simp only [ckseq, List.singleton_append, runInstrs, exec_ckclr, runInstrs_ckadd]
  rfl

/-! ## TXFRAME -/

/-- R171: TXBPUSH where there is room. -/
theorem exec_txbpush_room {b : Byte} {s : State} (h : s.txb.length < 256) :
    ∃ r, exec (.txbpush b) s = .next { s with txb := s.txb ++ [b], resp := r } := by
  simp only [exec, execTxbpush, if_neg (Nat.ne_of_lt h)]
  exact ⟨_, rfl⟩

/-- R172: TXSEND where TXB holds something. -/
theorem exec_txsend_held {s : State} (h : s.txb ≠ []) :
    exec .txsend s =
      answers { s with txq := s.txq ++ frame s.txb, txb := [] } 0x00#8 (BitVec.ofNat 24 (frame s.txb).length) := by
  simp only [exec, execTxsend, if_neg h]
  rfl

/-- R171: TXBPUSHes one after the other append their bytes to TXB, as long as there is room for all of them. -/
theorem runInstrs_txbpush {bytes : List Byte} {s : State} (h : s.txb.length + bytes.length ≤ 256) :
    ∃ r, runInstrs (bytes.map .txbpush) s = .next { s with txb := s.txb ++ bytes, resp := r } := by
  induction bytes generalizing s with
  | nil => exact ⟨s.resp, by simp [runInstrs]⟩
  | cons b bytes ih =>
    rw [List.length_cons] at h
    obtain ⟨r, hpush⟩ := exec_txbpush_room (b := b) (s := s) (by omega)
    obtain ⟨r', hrest⟩ := ih (s := { s with txb := s.txb ++ [b], resp := r }) (by simp; omega)
    exact ⟨r', by simp [runInstrs, hpush, hrest]⟩

/-- Settles O41: the bytes are built up in TXB and sent as one frame. -/
theorem txframeTransmitsTheFrameOfItsBytes : Obligations.TxframeTransmitsTheFrameOfItsBytes := by
  intro bytes s hne hlen
  obtain ⟨r, hpush⟩ := runInstrs_txbpush (bytes := bytes) (s := ({ s with txb := [] } : State).respond .ok 0#24)
    (by simpa using hlen)
  have hsend := exec_txsend_held (s := { s with txb := bytes, resp := r }) hne
  have hclr : exec .txbclr s = .next (({ s with txb := [] } : State).respond .ok 0#24) := rfl
  simp only [txframe, runInstrs_append, List.singleton_append, runInstrs, hclr, hpush]
  simp only [State.respond, List.nil_append, hsend]
  rfl

/-! ## Control replies -/

/-- Settles O42. -/
theorem controlRepliesOnTheWire : Obligations.ControlRepliesOnTheWire := by
  unfold Obligations.ControlRepliesOnTheWire
  decide

end Sys2Proof.Machine

/-! SUPPORT. The wire symbols as the reader takes them (spec/30_encoding.md R77): the receive engine's step on each kind of
byte, the symbols that complete with it, and the reading of a whole frame (R75) by induction over its bytes. -/

namespace Sys2Proof.Machine

/-! ## The engine's step on each kind of byte -/

/-- R43: with a byte in RXF and a read in progress the engine is enabled. -/
theorem rxeEnabled_cons {s : State} {b : Byte} {rest : List Byte} (hst : s.rdSt ≠ .idle) (hx : s.rxf = b :: rest) :
    s.rxeEnabled = true :=
  (rxeEnabled_iff s).mpr ⟨hst, .inl (by simp [hx])⟩

/-- R133: the delimiter opens a frame. -/
theorem exec_rxe_delimiter {s : State} {rest : List Byte} (hst : s.rdSt = .waitDelim) (hx : s.rxf = 0x7E#8 :: rest) :
    exec .rxeStep s = .next { s with rxf := rest, fb := [], rdEsc := false, rdSt := .readLen, resp := none } := by
  rw [exec_rxe_wait hst (rxeEnabled_cons (by simp [hst]) hx)]
  simp [rxeWaitDelim, State.silent, State.openFrame, hx]

/-- R133, R138: any other byte where the delimiter is awaited ends the read. -/
theorem exec_rxe_unexpected {s : State} {b : Byte} {rest : List Byte} (hst : s.rdSt = .waitDelim)
    (hx : s.rxf = b :: rest) (hb : b ≠ 0x7E#8) :
    exec .rxeStep s =
      .next { s with
        rxf := [], fb := [], rdEsc := false, rdRem := 0#9, rdSt := .idle, rdRes := ⟨.feUnexpected, b.setWidth 24⟩,
        resp := none } := by
  rw [exec_rxe_wait hst (rxeEnabled_cons (by simp [hst]) hx)]
  simp [rxeWaitDelim, State.silent, State.frameError, zext24, hx, hb]

/-- R134: 0x7D opens an escape. -/
theorem exec_rxe_escape {s : State} {rest : List Byte} (hst : s.rdSt = .readLen ∨ s.rdSt = .readBody)
    (hesc : s.rdEsc = false) (hx : s.rxf = 0x7D#8 :: rest) :
    exec .rxeStep s = .next { s with rxf := rest, rdEsc := true, resp := none } := by
  rw [exec_rxe_frame hst (by simp [hx])]
  simp [rxeInFrame, State.silent, hx, hesc]

/-- R134, R138: a byte that may not follow 0x7D ends the read. -/
theorem exec_rxe_badEscape {s : State} {b : Byte} {rest : List Byte} (hst : s.rdSt = .readLen ∨ s.rdSt = .readBody)
    (hesc : s.rdEsc = true) (hx : s.rxf = b :: rest) (h5E : b ≠ 0x5E#8) (h5D : b ≠ 0x5D#8) :
    exec .rxeStep s =
      .next { s with
        rxf := [], fb := [], rdEsc := false, rdRem := 0#9, rdSt := .idle, rdRes := ⟨.feBadesc, b.setWidth 24⟩,
        resp := none } := by
  rw [exec_rxe_frame hst (by simp [hx])]
  simp [rxeInFrame, State.silent, State.frameError, zext24, hx, hesc, escapedByte_eq_none.mpr ⟨h5E, h5D⟩]

/-! ## The symbols that complete -/

/-- Settles O30: each of the three symbols is next in its situation, and is the engine's step there. -/
theorem wireDelimiterAndErrorSymbolsComplete : Obligations.WireDelimiterAndErrorSymbolsComplete := by
  intro s x rest
  refine ⟨fun hst hx => ?_, fun hst hx hne => ?_, fun hst hesc hx h5E h5D => ?_⟩
  · have hnext : s.symbolNext = some .wireDelim := by rw [symbolNext_wait hst hx, if_pos rfl]
    rw [exec_symbolNext hnext, exec_rxe_delimiter hst hx]
  · have hnext : s.symbolNext = some (.wireUnexpected x) := by rw [symbolNext_wait hst hx, if_neg hne]
    rw [exec_symbolNext hnext, exec_rxe_unexpected hst hx hne]
  · have hnext : s.symbolNext = some (.wireBadesc x) := by
      rw [symbolNext_escape hst hesc hx, if_neg h5E, if_neg h5D]
    rw [exec_symbolNext hnext, exec_rxe_badEscape hst hesc hx h5E h5D]

/-- R77: the symbol `i`, whose last byte is `b`, delivers the byte `d` where the escape flag is `esc`. -/
def Delivers (esc : Bool) (b d : Byte) (i : Instr) : Prop :=
  (esc = false ∧ b ≠ 0x7D#8 ∧ d = b ∧ i = .wireLiteral b) ∨
    (esc = true ∧ b = 0x5E#8 ∧ d = 0x7E#8 ∧ i = .wireEsc7E) ∨
    (esc = true ∧ b = 0x5D#8 ∧ d = 0x7D#8 ∧ i = .wireEsc7D)

/-- R77, R134: inside a frame a symbol that delivers a byte is next, and its byte is accepted. -/
theorem exec_delivers {s : State} {i : Instr} {b d : Byte} {rest : List Byte} (h : Delivers s.rdEsc b d i)
    (hst : s.rdSt = .readLen ∨ s.rdSt = .readBody) (hx : s.rxf = b :: rest) :
    exec i s = ({ s with rxf := rest, rdEsc := false, resp := none } : State).accept d := by
  rcases h with ⟨hesc, hb, rfl, rfl⟩ | ⟨hesc, rfl, rfl, rfl⟩ | ⟨hesc, rfl, rfl, rfl⟩
  · have hnext : s.symbolNext = some (.wireLiteral d) := by rw [symbolNext_plain hst hesc hx, if_neg hb]
    rw [exec_symbolNext hnext, exec_rxe_deliver hst hx (.inl ⟨hesc, hb, rfl⟩)]
  · have hnext : s.symbolNext = some .wireEsc7E := by rw [symbolNext_escape hst hesc hx, if_pos rfl]
    rw [exec_symbolNext hnext, exec_rxe_deliver hst hx (.inr (.inl ⟨hesc, rfl, rfl⟩))]
  · have hnext : s.symbolNext = some .wireEsc7D := by rw [symbolNext_escape hst hesc hx]; rfl
    rw [exec_symbolNext hnext, exec_rxe_deliver hst hx (.inr (.inr ⟨hesc, rfl, rfl⟩))]

/-- Settles O31: the byte is accepted as the length byte, in the body, or as the last byte. -/
theorem wireDataSymbolsDeliverTheirByte : Obligations.WireDataSymbolsDeliverTheirByte := by
  intro s i b d rest hx h
  refine ⟨fun hst => ?_, fun hst hrem => ?_, fun body lo hst hrem hfb => ?_⟩
  · rw [exec_delivers h (.inl hst) hx]
    exact accept_len hst
  · rw [exec_delivers h (.inr hst) hx]
    exact accept_mid hst hrem
  · rw [exec_delivers h (.inr hst) hx]
    exact accept_last hst hrem hfb

/-- R77: the symbol that is next keeps the side conditions of its row. -/
theorem symbolNext_wf {s : State} {i : Instr} (h : s.symbolNext = some i) : i.wf = true := by
  unfold State.symbolNext at h
  split at h
  · split at h
    · next hd =>
      cases h
      exact (encode_of_decodeSymbol hd).2
    · cases h
  · cases h

/-- R77: with a byte received and a read in progress, no symbol is next only where 0x7D opens an escape. -/
theorem symbolNext_eq_none {s : State} (h : s.symbolNext = none) (hst : s.rdSt ≠ .idle) {b : Byte} {rest : List Byte}
    (hx : s.rxf = b :: rest) : (s.rdSt = .readLen ∨ s.rdSt = .readBody) ∧ s.rdEsc = false ∧ b = 0x7D#8 := by
  cases hs : s.rdSt with
  | idle => exact absurd hs hst
  | waitDelim => simp [symbolNext_wait hs hx] at h
  | readLen | readBody =>
    cases hesc : s.rdEsc with
    | true => simp [symbolNext_escape (by simp [hs]) hesc hx] at h
    | false => simpa [symbolNext_plain (by simp [hs]) hesc hx] using h

/-- Settles O32. -/
theorem rxeStepIsTheWireSymbolItCompletes : Obligations.RxeStepIsTheWireSymbolItCompletes := by
  intro s hst hne
  obtain ⟨b, rest, hx⟩ := List.exists_cons_of_ne_nil hne
  cases hs : s.symbolNext with
  | some i => exact .inl ⟨i, rfl, symbolNext_wf hs, (exec_symbolNext hs).symm⟩
  | none =>
    obtain ⟨hframe, hesc, rfl⟩ := symbolNext_eq_none hs hst hx
    exact .inr ⟨rfl, hesc, by simp [hx], by rw [exec_rxe_escape hframe hesc hx, hx]; rfl⟩

/-! ## Reading a frame -/

/-- R100: escaping a sequence escapes its parts. -/
theorem escape_append (l m : List Byte) : escape (l ++ m) = escape l ++ escape m := by
  induction l with
  | nil => rfl
  | cons b l ih => simp [escape, ih]

/-- Engine steps that lead from one state to another come before the others. -/
theorem rxeSteps_trans {a b : Nat} {s t : State} (h : rxeSteps a s = .next t) :
    rxeSteps (a + b) s = rxeSteps b t := by
  rw [rxeSteps_add, h]

/-- R100, R134: inside a frame the engine takes the one or two wire bytes of an escaped byte and accepts that byte. -/
theorem rxeSteps_esc1 {s : State} {d : Byte} {rest : List Byte} (hst : s.rdSt = .readLen ∨ s.rdSt = .readBody)
    (hesc : s.rdEsc = false) (hx : s.rxf = esc1 d ++ rest) :
    rxeSteps (esc1 d).length s = ({ s with rxf := rest, rdEsc := false, resp := none } : State).accept d := by
  have escaped {x : Byte} (hd : (x = 0x5E#8 ∧ d = 0x7E#8) ∨ (x = 0x5D#8 ∧ d = 0x7D#8))
      (hx : s.rxf = 0x7D#8 :: x :: rest) :
      rxeSteps 2 s = ({ s with rxf := rest, rdEsc := false, resp := none } : State).accept d := by
    rw [rxeSteps_succ (exec_rxe_escape hst hesc hx), rxeSteps_one]
    exact exec_rxe_deliver (s := { s with rxf := x :: rest, rdEsc := true, resp := none }) hst rfl
      (.inr (hd.imp (⟨rfl, ·⟩) (⟨rfl, ·⟩)))
  rcases esc1_cases d with ⟨hd, he⟩ | ⟨hd, he⟩ | ⟨-, hd, he⟩ <;> rw [he] at hx ⊢
  · exact escaped (.inl ⟨rfl, hd⟩) hx
  · exact escaped (.inr ⟨rfl, hd⟩) hx
  · exact (rxeSteps_one s).trans (exec_rxe_deliver hst hx (.inl ⟨hesc, hd, rfl⟩))

/-- The state inside a frame's body: the bytes held, how many are still to come, and what RXF holds. -/
def State.inBody (fb : List Byte) (rem : Nat) (rxf : List Byte) (s : State) : State :=
  { s with rxf := rxf, rdSt := .readBody, rdEsc := false, rdRem := BitVec.ofNat 9 rem, fb := fb, resp := none }

/-- R136: the counter of the body goes down by one. -/
theorem ofNat_rem_succ (n : Nat) : BitVec.ofNat 9 (n + 1) - 1#9 = BitVec.ofNat 9 n := by
  rw [BitVec.ofNat_add]
  simp

/-- R134, R136: bytes of the body before the last one go into FB, each by the steps of its wire bytes. -/
theorem rxeSteps_inBody (bytes fb : List Byte) {rem : Nat} (hpos : 0 < rem) (hlt : rem + bytes.length < 512)
    (rest : List Byte) (s : State) :
    rxeSteps (escape bytes).length (s.inBody fb (rem + bytes.length) (escape bytes ++ rest)) =
      .next (s.inBody (fb ++ bytes) rem rest) := by
  induction bytes generalizing fb with
  | nil => simp [escape, rxeSteps, runInstrs]
  | cons b bytes ih =>
    rw [List.length_cons] at hlt
    have hone : rxeSteps (esc1 b).length (s.inBody fb (rem + (b :: bytes).length) (escape (b :: bytes) ++ rest)) =
        .next (s.inBody (fb ++ [b]) (rem + bytes.length) (escape bytes ++ rest)) := by
      rw [rxeSteps_esc1 (d := b) (rest := escape bytes ++ rest) (.inr rfl) rfl (by simp [State.inBody, escape]),
        accept_mid rfl (by simp [State.inBody]; omega)]
      simp only [State.inBody, List.length_cons, ← Nat.add_assoc, ofNat_rem_succ]
    have hlen : (escape (b :: bytes)).length = (esc1 b).length + (escape bytes).length := List.length_append
    rw [hlen, rxeSteps_trans hone, ih _ (by omega), List.append_assoc, List.singleton_append]

/-- R133, R135: the delimiter and the length byte begin the body, of which `LEN + 2` bytes are to come. -/
theorem rxeSteps_openBody {s : State} {l : Byte} {rest : List Byte} (hst : s.rdSt = .waitDelim)
    (hx : s.rxf = 0x7E#8 :: (esc1 l ++ rest)) :
    rxeSteps ((esc1 l).length + 1) s = .next (State.inBody [l] (l.toNat + 2) rest { s with rdLen := l }) := by
  rw [rxeSteps_succ (exec_rxe_delimiter hst hx), rxeSteps_esc1 (.inl rfl) rfl rfl, accept_len rfl]
  rfl

/-- R136, R137: the last byte of a body whose checksum matches makes the body the message. -/
theorem rxeSteps_lastByte {body : List Byte} {lo hi : Byte} (hsums : fletcher body = (lo, hi)) (rest : List Byte)
    (s : State) :
    rxeSteps (esc1 hi).length (s.inBody (body ++ [lo]) 1 (esc1 hi ++ rest)) =
      .next { s with
        rxf := rest, rdSt := .idle, rdEsc := false, rdRem := 0#9, fb := [], msg := body,
        rdRes := ⟨.ok, BitVec.ofNat 24 body.length⟩, resp := none } := by
  rw [rxeSteps_esc1 (d := hi) (rest := rest) (.inr rfl) rfl rfl, accept_last rfl rfl rfl, if_pos hsums]
  rfl

/-- R75, R172: the wire bytes of a frame, byte by byte: the delimiter, the length byte, the rest of the body with the first
checksum byte, and the last byte. -/
theorem frame_cons {l lo hi : Byte} {m : List Byte} (hsums : fletcher (l :: m) = (lo, hi)) :
    frame (l :: m) = 0x7E#8 :: (esc1 l ++ (escape (m ++ [lo]) ++ esc1 hi)) := by
  have hbytes : (l :: m) ++ [lo, hi] = l :: ((m ++ [lo]) ++ [hi]) := by simp
  rw [frame, checksumBytes, hsums, hbytes, escape, escape_append]
  simp [escape]

/-- Settles O38: the delimiter and the length byte, then the body by induction, then the last byte, where the sums match. -/
theorem readingAFrameGivesBackItsBytes : Obligations.ReadingAFrameGivesBackItsBytes := by
  intro s l m rest _ hst hlen hx
  obtain ⟨⟨lo, hi⟩, hsums⟩ : ∃ p, fletcher (l :: m) = p := ⟨_, rfl⟩
  have hl : l.toNat < 256 := l.isLt
  have hrem : l.toNat + 2 = 1 + (m ++ [lo]).length := by simp; omega
  have hsteps : (frame (l :: m)).length =
      ((esc1 l).length + 1) + ((escape (m ++ [lo])).length + (esc1 hi).length) := by
    simp [frame_cons hsums]; omega
  rw [frame_cons hsums] at hx
  rw [hsteps, rxeSteps_trans (rxeSteps_openBody hst (rest := escape (m ++ [lo]) ++ (esc1 hi ++ rest)) (by simpa using hx)),
    hrem, rxeSteps_trans (rxeSteps_inBody (m ++ [lo]) [l] Nat.one_pos (by omega) _ _)]
  refine (rxeSteps_lastByte (body := l :: m) hsums rest _).trans ?_
  rw [List.length_cons, hlen]

end Sys2Proof.Machine

/-! SUPPORT. The escape codec (spec/40_codec.md): what escape and unescape give (R100, R101), the laws between them (R104),
and the two commands (R102, R103). -/

namespace Sys2Proof.Machine

/-! ## Escaping (R100) -/

/-- Settles O12, by induction on the sequence: one more byte puts its one or two bytes before the rest. -/
theorem escapeReplacesEachSpecialByte : Obligations.EscapeReplacesEachSpecialByte := by
  intro s
  induction s with
  | nil => rfl
  | cons b s ih =>
    rw [escape, ih, List.map_cons, List.flatten_cons]
    rfl

/-- R104: no delimiter stands in an escaped byte. -/
theorem delimiter_not_mem_esc1 (b : Byte) : (0x7E#8 : Byte) ∉ esc1 b := by
  rcases esc1_cases b with ⟨-, he⟩ | ⟨-, he⟩ | ⟨hb, -, he⟩ <;> rw [he]
  · decide
  · decide
  · simpa using hb.symm

/-- R104: no delimiter stands in escaped text. -/
theorem delimiter_not_mem_escape (s : List Byte) : (0x7E#8 : Byte) ∉ escape s := by
  induction s with
  | nil => simp [escape]
  | cons b s ih => exact List.not_mem_append (delimiter_not_mem_esc1 b) ih

/-- R104: where 0x7D stands in an escaped byte, it is the first of its two bytes. -/
theorem esc1_after_7D {b : Byte} {p q : List Byte} (h : esc1 b = p ++ 0x7D#8 :: q) : q = [0x5E#8] ∨ q = [0x5D#8] := by
  have first {x : Byte} (hx : x ≠ 0x7D#8) (h : [0x7D#8, x] = p ++ 0x7D#8 :: q) : q = [x] := by
    cases p with
    | nil => simpa using h.symm
    | cons y p => simp [List.singleton_eq_append_iff, hx.symm] at h
  rcases esc1_cases b with ⟨-, he⟩ | ⟨-, he⟩ | ⟨-, hb, he⟩ <;> rw [he] at h
  · exact .inl (first (by decide) h)
  · exact .inr (first (by decide) h)
  · simp [List.singleton_eq_append_iff, hb.symm] at h

/-- R104: every 0x7D in escaped text is followed by 0x5E or 0x5D. It stands in the first byte's escape or in the rest. -/
theorem escape_after_7D {s p q : List Byte} (h : escape s = p ++ 0x7D#8 :: q) :
    q.head? = some 0x5E#8 ∨ q.head? = some 0x5D#8 := by
  induction s generalizing p with
  | nil => simp [escape] at h
  | cons b s ih =>
    rcases List.append_eq_append_iff.mp h with ⟨p', -, hs⟩ | ⟨tail, hb, hq⟩
    · exact ih hs
    cases tail with
    | nil => exact ih (p := []) hq.symm
    | cons x r =>
      obtain ⟨rfl, rfl⟩ := List.cons.inj hq
      exact (esc1_after_7D hb).imp (by rintro rfl; rfl) (by rintro rfl; rfl)

/-- R104: a special byte is escaped to two bytes, every other byte to one. -/
theorem length_esc1 (b : Byte) : (esc1 b).length = if b = 0x7E#8 ∨ b = 0x7D#8 then 2 else 1 := by
  rcases esc1_cases b with ⟨rfl, -⟩ | ⟨rfl, -⟩ | ⟨h7E, h7D, he⟩
  · rfl
  · rfl
  · simp [he, h7E, h7D]

/-- R104: escaped text is longer by one byte for each special byte. -/
theorem length_escape (s : List Byte) :
    (escape s).length = s.length + (s.filter fun b => b = 0x7E#8 ∨ b = 0x7D#8).length := by
  induction s with
  | nil => rfl
  | cons b s ih =>
    rw [escape, List.length_append, length_esc1, ih, List.length_cons]
    by_cases hb : b = 0x7E#8 ∨ b = 0x7D#8
    · rw [if_pos hb, List.filter_cons_of_pos (by simpa using hb), List.length_cons]; omega
    · rw [if_neg hb, List.filter_cons_of_neg (by simpa using hb)]; omega

/-! ## Unescaping (R101) -/

/-- R101: a lone 0x7D at the end is an escape cut off. -/
theorem unescape_lone_7D : unescape [0x7D#8] = .error .truncated := by
  rw [unescape.eq_def]; rfl

/-- R101: a byte that may not follow 0x7D is the error, whatever comes after it. -/
theorem unescape_of_badEscape {x : Byte} (h : escapedByte x = none) (s : List Byte) :
    unescape (0x7D#8 :: x :: s) = .error (.badEsc x) := by
  rw [unescape.eq_def]; simp [h]

/-- R101: what one more byte or one more escape in front makes of the result of the rest. -/
theorem unescape_of_rest {s : List Byte} {v : Except UnescapeError (List Byte)} (h : unescape s = v) :
    unescape (0x7D#8 :: 0x5E#8 :: s) = consOk 0x7E#8 v ∧ unescape (0x7D#8 :: 0x5D#8 :: s) = consOk 0x7D#8 v ∧
      ∀ b : Byte, b ≠ 0x7D#8 → unescape (b :: s) = consOk b v := by
  subst h
  exact ⟨unescape_of_escape rfl s, unescape_of_escape rfl s, fun _ hb => unescape_of_ne hb s⟩

/-- Settles O13: in front of a good rest its byte is added, in front of an error the error stays, and a cut-off or a bad
escape is the error itself. -/
theorem unescapeIsTheInverseOrTheFirstError : Obligations.UnescapeIsTheInverseOrTheFirstError :=
  ⟨rfl, unescape_lone_7D, fun _ _ => unescape_of_rest, fun _ _ => unescape_of_rest,
    fun _ s h5E h5D => unescape_of_badEscape (escapedByte_eq_none.mpr ⟨h5E, h5D⟩) s⟩

/-! ## The laws of the codec (R104) -/

/-- R104: an escaped byte in front is read back as that byte. -/
theorem unescape_esc1_append (b : Byte) (s : List Byte) : unescape (esc1 b ++ s) = consOk b (unescape s) := by
  rcases esc1_cases b with ⟨rfl, he⟩ | ⟨rfl, he⟩ | ⟨-, hb, he⟩ <;> rw [he]
  · exact unescape_of_escape rfl s
  · exact unescape_of_escape rfl s
  · exact unescape_of_ne hb s

/-- R104: unescaping is inverse to escaping. -/
theorem unescape_escape (s : List Byte) : unescape (escape s) = .ok s := by
  induction s with
  | nil => rfl
  | cons b s ih => rw [escape, unescape_esc1_append, ih, consOk]

/-- R104: different sequences escape differently, since unescaping gives each back. -/
theorem escape_injective : Function.Injective escape := fun s t h =>
  Except.ok.inj ((unescape_escape s).symm.trans (h ▸ unescape_escape t))

/-- Settles O14: each law is a lemma about escaping one byte, carried over the sequence by induction. -/
theorem codecRoundTripsAndEscapedTextHasNoDelimiter : Obligations.CodecRoundTripsAndEscapedTextHasNoDelimiter :=
  ⟨unescape_escape, delimiter_not_mem_escape, fun _ _ _ => escape_after_7D, length_escape, escape_append,
    fun _ _ h => escape_injective h⟩

/-! ## The words of a command with operands (R71, R74) -/

/-- R71, R226: the host's word of a command with the operand A: its fields B and C are reserved. -/
theorem issue_operandA {op : Byte} {build : Byte → Byte → Byte → Instr}
    (hr : opcodeRow op.toNat = some ⟨0x0000FFFF#32, build⟩) (a b c : Byte) (s : State) :
    issue (op ++ a ++ b ++ c) s = if b = 0#8 ∧ c = 0#8 then exec (build a b c) s else answers s 0x41#8 0#24 := by
  simpa [packWord] using issue_packWord 0x00#8 0xFF#8 0xFF#8 hr rfl a b c s

/-- R71, R226: the host's word of a command with the operands A and B: its field C is reserved. -/
theorem issue_operandsAB {op : Byte} {build : Byte → Byte → Byte → Instr}
    (hr : opcodeRow op.toNat = some ⟨0x000000FF#32, build⟩) (a b c : Byte) (s : State) :
    issue (op ++ a ++ b ++ c) s = if c = 0#8 then exec (build a b c) s else answers s 0x41#8 0#24 := by
  simpa [packWord] using issue_packWord 0x00#8 0x00#8 0xFF#8 hr rfl a b c s

/-! ## ESC and UNESC (R102, R103) -/

/-- R102: the count and the bytes that ESC answers. -/
theorem escData_eq (a : Byte) :
    escData a = if a = 0x7E#8 then 0x027D5E#24 else if a = 0x7D#8 then 0x027D5D#24 else 0x01#8 ++ a ++ 0x00#8 := by
  rcases esc1_cases a with ⟨rfl, -⟩ | ⟨rfl, -⟩ | ⟨h7E, h7D, he⟩
  · rfl
  · rfl
  · rw [if_neg h7E, if_neg h7D, escData, he]; rfl

/-- Settles O10, from the escaped byte's data and the word's reserved fields B and C. -/
theorem escAnswersTheEscapedByte : Obligations.EscAnswersTheEscapedByte := by
  intro a b c s
  refine ⟨?_, issue_operandA (op := 0x10#8) rfl a b c s⟩
  rw [← escData_eq]
  rfl

/-- R103: a first byte that opens no escape is answered as itself. -/
theorem exec_unesc_plain {b0 : Byte} (h : b0 ≠ 0x7D#8) (b1 : Byte) (s : State) :
    exec (.unesc b0 b1) s = answers s 0x00#8 (0x01#8 ++ 0x00#8 ++ b0) := by
  simp only [exec, execUnesc, if_pos h]; rfl

/-- R103: an escape is answered as the byte it stands for. -/
theorem exec_unesc_escape {b1 d : Byte} (h : escapedByte b1 = some d) (s : State) :
    exec (.unesc 0x7D#8 b1) s = answers s 0x00#8 (0x02#8 ++ 0x00#8 ++ d) := by
  simp only [exec, execUnesc, h]; rfl

/-- R103: a bad escape is answered as FE_BADESC with its second byte. -/
theorem exec_unesc_badEscape {b1 : Byte} (h : escapedByte b1 = none) (s : State) :
    exec (.unesc 0x7D#8 b1) s = answers s 0x11#8 (b1.setWidth 24) := by
  simp only [exec, execUnesc, h]; rfl

/-- Settles O11: the first byte is plain, or it opens one of the two escapes or a bad one. -/
theorem unescAnswersTheDecodedByteOrBadEscape : Obligations.UnescAnswersTheDecodedByteOrBadEscape := by
  intro b0 b1 c s
  refine ⟨?_, issue_operandsAB (op := 0x11#8) rfl b0 b1 c s⟩
  by_cases h0 : b0 = 0x7D#8
  · subst h0
    rw [if_neg (not_not_intro rfl)]
    by_cases h5E : b1 = 0x5E#8
    · rw [if_pos h5E, exec_unesc_escape (escapedByte_eq_some.mpr (.inl ⟨h5E, rfl⟩))]; rfl
    by_cases h5D : b1 = 0x5D#8
    · rw [if_neg h5E, if_pos h5D, exec_unesc_escape (escapedByte_eq_some.mpr (.inr ⟨h5D, rfl⟩))]; rfl
    · rw [if_neg h5E, if_neg h5D, exec_unesc_badEscape (escapedByte_eq_none.mpr ⟨h5E, h5D⟩)]
  · rw [if_pos h0, exec_unesc_plain h0]

end Sys2Proof.Machine

/-! SUPPORT. The checksum (spec/41_checksum.md): the sums over a sequence (R110, R112, R117), the commands of the accumulator
(R113 to R116), and the independence of the writer and the accumulator from the reader (R118, R174). -/

namespace Sys2Proof.Machine

/-! ## Addition modulo 255 (R110, R112) -/

/-- R112: from a sum of at most 254 one conditional subtraction of 255 gives the next one. -/
theorem add255_toNat_of_le {x : Byte} (hx : x.toNat ≤ 254) (y : Byte) :
    (add255 x y).toNat = if x.toNat + y.toNat ≥ 255 then x.toNat + y.toNat - 255 else x.toNat + y.toNat := by
  have hy : y.toNat < 256 := y.isLt
  rw [add255_toNat]
  split <;> omega

/-- R110: addition modulo 255 is addition of the classes modulo 255. -/
theorem add255_modEq (x y : Byte) : (add255 x y).toNat ≡ x.toNat + y.toNat [MOD 255] := by
  rw [add255_toNat]
  exact Nat.mod_modEq ..

/-- R117: of a byte that is added only its class modulo 255 counts. -/
theorem add255_right_eq {b b' : Byte} (h : b.toNat ≡ b'.toNat [MOD 255]) (x : Byte) : add255 x b = add255 x b' :=
  congrArg (BitVec.ofNat 8) (h.add_left x.toNat)

/-- R117: 0x00 and 0xFF are the only two bytes of one class modulo 255. -/
theorem byte_modEq_255 {b b' : Byte} :
    b.toNat ≡ b'.toNat [MOD 255] ↔ b = b' ∨ (b = 0x00#8 ∧ b' = 0xFF#8) ∨ (b = 0xFF#8 ∧ b' = 0x00#8) := by
  have hb : b.toNat < 256 := b.isLt
  have hb' : b'.toNat < 256 := b'.isLt
  simp only [Nat.ModEq, ← BitVec.toNat_inj, BitVec.toNat_ofNat]
  omega

/-! ## The sums over a sequence (R110, R112, R117) -/

/-- R112: both sums are at most 254. -/
theorem fletcher_le (s : List Byte) : (fletcher s).1.toNat ≤ 254 ∧ (fletcher s).2.toNat ≤ 254 := by
  rcases List.eq_nil_or_concat s with rfl | ⟨s, b, rfl⟩
  · decide
  · rw [List.concat_eq_append, fletcher_concat]
    exact ⟨add255_le .., add255_le ..⟩

/-- Settles O19: sum1 adds the byte and sum2 the new sum1, each to a sum of at most 254. -/
theorem fletcherAddsWithOneConditionalSubtraction : Obligations.FletcherAddsWithOneConditionalSubtraction := by
  refine ⟨rfl, fun s b => ?_⟩
  obtain ⟨hle1, hle2⟩ := fletcher_le s
  have hsum1 := add255_toNat_of_le hle1 b
  have hsum2 := add255_toNat_of_le hle2 (add255 (fletcher s).1 b)
  rw [hsum1] at hsum2
  rw [fletcher_concat]
  exact ⟨hsum1, hsum2, hsum1 ▸ add255_le .., hsum2 ▸ add255_le ..⟩

/-- R110: the sums after a byte inside a sequence are stepped on by the bytes after it. -/
theorem fletcher_append_byte (s t : List Byte) (b : Byte) :
    fletcher (s ++ [b] ++ t) = t.foldl ckStep (ckStep (fletcher s) b) := by
  simp [fletcher]

/-- Settles O20: 0xFF and 0x00 are of one class, so that the step of the sums is the same. -/
theorem fletcherCannotTellFFFrom00 : Obligations.FletcherCannotTellFFFrom00 := by
  refine ⟨fun s t => ?_, rfl, rfl⟩
  have hadd (x : Byte) : add255 x 0xFF#8 = add255 x 0x00#8 := add255_right_eq (byte_modEq_255.mpr (by decide)) x
  rw [fletcher_append_byte, fletcher_append_byte, ckStep, hadd]
  rfl

/-- R117: bytes stepped over do not bring different classes of sum1 together. -/
theorem foldl_ckStep_modEq {t : List Byte} {p q : Byte × Byte}
    (h : (t.foldl ckStep p).1.toNat ≡ (t.foldl ckStep q).1.toNat [MOD 255]) : p.1.toNat ≡ q.1.toNat [MOD 255] := by
  induction t generalizing p q with
  | nil => exact h
  | cons c t ih =>
    have hstep : (add255 p.1 c).toNat ≡ (add255 q.1 c).toNat [MOD 255] := ih h
    exact Nat.ModEq.add_right_cancel' c.toNat ((add255_modEq p.1 c).symm.trans (hstep.trans (add255_modEq q.1 c)))

/-- R117: where sum1 is the same, the changed byte is of the same class. -/
theorem modEq_of_fletcher_fst_eq {s t : List Byte} {b b' : Byte}
    (h : (fletcher (s ++ [b] ++ t)).1 = (fletcher (s ++ [b'] ++ t)).1) : b.toNat ≡ b'.toNat [MOD 255] := by
  rw [fletcher_append_byte, fletcher_append_byte] at h
  have hadd : (add255 (fletcher s).1 b).toNat ≡ (add255 (fletcher s).1 b').toNat [MOD 255] :=
    foldl_ckStep_modEq (congrArg (BitVec.toNat · % 255) h)
  exact Nat.ModEq.add_left_cancel' _ ((add255_modEq _ b).symm.trans (hadd.trans (add255_modEq _ b')))

/-- R112, R117: a number of at most 254 is not the byte 0xFF. -/
theorem ne_FF_of_le {x : Byte} (h : x.toNat ≤ 254) : x ≠ 0xFF#8 := by
  rintro rfl
  exact absurd h (by decide)

/-- Settles O21: equal sums leave only equal bytes, or 0x00 and 0xFF. -/
theorem fletcherDetectsEveryOtherByteChange : Obligations.FletcherDetectsEveryOtherByteChange := by
  refine ⟨fun s t b b' hne h0F hF0 heq => ?_, fun s => ?_⟩
  · rcases byte_modEq_255.mp (modEq_of_fletcher_fst_eq heq) with h | h | h
    · exact hne h
    · exact h0F h
    · exact hF0 h
  · exact (fletcher_le s).imp ne_FF_of_le ne_FF_of_le

/-! ## The accumulator's commands (R113 to R116) -/

/-- R71, R226: the host's word of a command without operands: its fields A, B and C are reserved. -/
theorem issue_noOperand {op : Byte} {build : Byte → Byte → Byte → Instr}
    (hr : opcodeRow op.toNat = some ⟨0x00FFFFFF#32, build⟩) (a b c : Byte) (s : State) :
    issue (op ++ a ++ b ++ c) s =
      if a = 0#8 ∧ b = 0#8 ∧ c = 0#8 then exec (build a b c) s else answers s 0x41#8 0#24 := by
  simpa [packWord] using issue_packWord 0xFF#8 0xFF#8 0xFF#8 hr rfl a b c s

/-- Settles O15: what the two commands do, by definition, and the reserved fields of their words. -/
theorem ckclrClearsAndCkrdReadsTheAccumulator : Obligations.CkclrClearsAndCkrdReadsTheAccumulator := fun a b c s =>
  ⟨rfl, rfl, issue_noOperand (op := 0x20#8) rfl a b c s, issue_noOperand (op := 0x22#8) rfl a b c s⟩

/-- Settles O16: the new sums are the additions modulo 255. -/
theorem ckaddAccumulatesModulo255 : Obligations.CkaddAccumulatesModulo255 := fun a b c s =>
  have sum1 := add255_toNat s.ckS1 a
  have sum2 := add255_toNat s.ckS2 (add255 s.ckS1 a)
  ⟨⟨_, _, sum1, sum2, rfl⟩, issue_operandA (op := 0x21#8) rfl a b c s⟩

/-- R116: CKVFY answers a match or a mismatch, with the sums. -/
theorem exec_ckvfy (lo hi : Byte) (s : State) :
    exec (.ckvfy lo hi) s =
      if s.ckS1 = lo ∧ s.ckS2 = hi then answers s 0x00#8 (0x01#8 ++ s.ckS2 ++ s.ckS1)
      else answers s 0x20#8 (0x00#8 ++ s.ckS2 ++ s.ckS1) := by
  simp only [exec, execCkvfy]
  split <;> rfl

/-- Settles O17. -/
theorem ckvfyComparesBothSums : Obligations.CkvfyComparesBothSums := fun lo hi c s =>
  ⟨exec_ckvfy lo hi s, issue_operandsAB (op := 0x23#8) rfl lo hi c s⟩

/-! ## The writer and the accumulator beside the reader (R118, R174) -/

/-- The state `s` with the accumulator (R30) and the writer's elements (R31, R32) of `w`. -/
def State.withHostUnits (w s : State) : State :=
  { s with ckS1 := w.ckS1, ckS2 := w.ckS2, txb := w.txb, txq := w.txq }

@[simp] theorem State.withHostUnits_self (s : State) : s.withHostUnits s = s := rfl

/-- The outcome with the accumulator and the writer's elements of `w` in its next state, if there is one. -/
def nextWithHostUnits (w : State) : Host.Outcome State Fault Refusal → Host.Outcome State Fault Refusal
  | .next s => .next (w.withHostUnits s)
  | .fault r => .fault r
  | .refused r => .refused r

/-- R137: the checksum of a frame is compared without the accumulator. -/
theorem judge_withHostUnits (w : State) (body : List Byte) (lo hi : Byte) (s : State) :
    (w.withHostUnits s).judge body lo hi = w.withHostUnits (s.judge body lo hi) := by
  unfold State.judge
  split <;> rfl

/-- R137: verify uses the reader's elements only. -/
theorem verify_withHostUnits (w s : State) : (w.withHostUnits s).verify = nextWithHostUnits w s.verify := by
  have hfb : (w.withHostUnits s).fb = s.fb := rfl
  simp only [State.verify, hfb]
  split
  · rfl
  · simp only [judge_withHostUnits]
    rfl

/-- R136: accept in READ_BODY uses the reader's elements only. -/
theorem acceptBody_withHostUnits (w : State) (d : Byte) (s : State) :
    (w.withHostUnits s).acceptBody d = nextWithHostUnits w (s.acceptBody d) := by
  have hrem : (w.withHostUnits s).rdRem = s.rdRem := rfl
  simp only [State.acceptBody, hrem]
  split
  · rfl
  split
  · exact verify_withHostUnits w { s with fb := s.fb ++ [d], rdRem := s.rdRem - 1#9 }
  · rfl

/-- R134: accept uses the reader's elements only. -/
theorem accept_withHostUnits (w : State) (d : Byte) (s : State) :
    (w.withHostUnits s).accept d = nextWithHostUnits w (s.accept d) := by
  have hst : (w.withHostUnits s).rdSt = s.rdSt := rfl
  simp only [State.accept, hst]
  split
  · rfl
  · exact acceptBody_withHostUnits w d s

/-- R133: the engine's step in WAIT_DELIM uses the reader's elements only. -/
theorem rxeWaitDelim_withHostUnits (w s : State) :
    rxeWaitDelim (w.withHostUnits s) = nextWithHostUnits w (rxeWaitDelim s) := by
  have hrxf : (w.withHostUnits s).rxf = s.rxf := rfl
  simp only [rxeWaitDelim, hrxf]
  split
  · rfl
  · split <;> rfl

/-- R134: the engine's step inside a frame uses the reader's elements only. -/
theorem rxeInFrame_withHostUnits (w s : State) :
    rxeInFrame (w.withHostUnits s) = nextWithHostUnits w (rxeInFrame s) := by
  have hrxf : (w.withHostUnits s).rxf = s.rxf := rfl
  have hesc : (w.withHostUnits s).rdEsc = s.rdEsc := rfl
  simp only [rxeInFrame, hrxf, hesc]
  split
  · rfl
  · next b rest _ =>
    split
    · split
      · next d _ => exact accept_withHostUnits w d { s with rxf := rest, rdEsc := false }
      · rfl
    · split
      · rfl
      · exact accept_withHostUnits w b { s with rxf := rest }

/-- R118, R174: the engine's step neither reads nor writes the accumulator and the writer's elements. -/
theorem exec_rxe_withHostUnits (w s : State) :
    exec .rxeStep (w.withHostUnits s) = nextWithHostUnits w (exec .rxeStep s) := by
  have hen : (w.withHostUnits s).rxeEnabled = s.rxeEnabled := rfl
  have hst : (w.withHostUnits s).rdSt = s.rdSt := rfl
  simp only [exec, execRxeStep, hen, hst]
  split
  · split
    · rfl
    · exact rxeWaitDelim_withHostUnits w s.silent
    · exact rxeInFrame_withHostUnits w s.silent
    · exact rxeInFrame_withHostUnits w s.silent
  · rfl

/-- R118, R174: a command of the writer or of the checksum unit reads and writes nothing but the accumulator, the writer's
elements and the response: where those are as in `s` it leaves them as it does from `s`. -/
theorem exec_hostUnits {i : Instr} (hi : i.unit = .tx ∨ i.unit = .ck) {s t : State} (h : exec i s = .next t) (u : State) :
    exec i (s.withHostUnits u) = .next { t.withHostUnits u with resp := t.resp } := by
  have hsum1 : (s.withHostUnits u).ckS1 = s.ckS1 := rfl
  have hsum2 : (s.withHostUnits u).ckS2 = s.ckS2 := rfl
  have htxb : (s.withHostUnits u).txb = s.txb := rfl
  cases i with
  | ckclr | ckadd _ | ckrd | txbclr => cases h; rfl
  | ckvfy _ _ =>
    simp only [exec, execCkvfy, hsum1, hsum2] at h ⊢
    split at h <;> cases h
    · next hsums => rw [if_pos hsums]; rfl
    · next hsums => rw [if_neg hsums]; rfl
  | txbpush _ =>
    simp only [exec, execTxbpush, htxb] at h ⊢
    split at h <;> cases h
    · next hfull => rw [if_pos hfull]; rfl
    · next hfull => rw [if_neg hfull]; rfl
  | txsend =>
    simp only [exec, execTxsend, htxb] at h ⊢
    split at h <;> cases h
    · next hnil => rw [if_pos hnil]; rfl
    · next hnil => rw [if_neg hnil]; rfl
  | _ => rcases hi with hi | hi <;> cases hi

/-- Settles O59: the command's effect is put beside the engine's, in either order; only the command has a response. -/
theorem writerAndReaderAreIndependent : Obligations.WriterAndReaderAreIndependent := by
  intro i s t u hi hc hr
  have hengine (w : State) : exec .rxeStep (w.withHostUnits s) = .next (w.withHostUnits u) := by
    rw [exec_rxe_withHostUnits, hr]; rfl
  have ht : t = { t.withHostUnits s with resp := t.resp } := by simpa [hc] using exec_hostUnits hi hc s
  have hu : u = s.withHostUnits u := by simpa [hr] using hengine s
  have hsilent : u.resp = none := by simpa [hr] using responseOf_not_command (i := .rxeStep) rfl s
  refine ⟨t.withHostUnits u, { t.withHostUnits u with resp := t.resp }, ?_, ?_, ?_, rfl⟩
  · rw [ht, exec_withResp]
    exact hengine t
  · rw [hu]
    exact exec_hostUnits hi hc u
  · rw [← hsilent]
    rfl

end Sys2Proof.Machine

/-! SUPPORT. The frame reader (spec/42_frame_reader.md): its commands with the reserved fields of their words (R131, R142 to
R144), the receive engine's step (R133 to R137), and the line's two events (R140, R141). -/

namespace Sys2Proof.Machine

/-! ## Starting a read (R131) -/

/-- R131: RDSTART answers BUSY, finds nothing pending, or starts a read. -/
theorem exec_rdstart (m : RdMode) (s : State) :
    exec (.rdstart m) s =
      if s.rdSt ≠ .idle then answers s 0x02#8 0#24
      else if m = .nonblock ∧ s.rxf = [] then answers (s.startNothing m) 0x01#8 0#24
      else answers (s.startRead m) 0x00#8 0#24 := by
  simp only [exec, execRdstart]
  split
  · rfl
  · split <;> rfl

/-- R71, R131: the operand byte of RDSTART has no reserved bit set exactly when it is 0 or 1. -/
theorem reservedA_mode_iff (a : Byte) : a &&& 0xFE#8 = 0#8 ↔ a = 0#8 ∨ a = 1#8 := by
  revert a
  decide

/-- R71, R131, R226: the host's word of RDSTART: the mode stands in A[0], and every other bit of A, B and C is reserved. -/
theorem issue_rdstart (a b c : Byte) (s : State) :
    issue (0x30#8 ++ a ++ b ++ c) s =
      if (a = 0#8 ∨ a = 1#8) ∧ b = 0#8 ∧ c = 0#8 then exec (.rdstart (modeOfBit a)) s
      else answers s 0x41#8 0#24 := by
  simpa only [packWord, reservedA_mode_iff, byte_and_ones] using
    issue_packWord (op := 0x30#8) 0xFE#8 0xFF#8 0xFF#8 rfl rfl a b c s

/-- Settles O22: the three outcomes, and the operand byte of either mode. -/
theorem rdstartStartsOneRead : Obligations.RdstartStartsOneRead := by
  intro m a b c s
  refine ⟨exec_rdstart m s, ?_⟩
  rw [issue_rdstart]
  by_cases hbc : b = 0#8 ∧ c = 0#8
  · obtain ⟨rfl, rfl⟩ := hbc
    by_cases h0 : a = 0#8
    · subst h0; rfl
    · by_cases h1 : a = 1#8
      · subst h1; rfl
      · simp [h0, h1]
  · rw [if_neg fun h => hbc h.2, if_neg fun h => hbc ⟨h.1, h.2.1⟩, if_neg fun h => hbc ⟨h.1, h.2.1⟩]

/-! ## Reading the outcome and the message (R142 to R144) -/

/-- R142: RDRES answers BUSY or the recorded outcome. -/
theorem exec_rdres (s : State) :
    exec .rdres s = if s.rdSt ≠ .idle then answers s 0x02#8 0#24 else answers s s.rdRes.code.code s.rdRes.info := by
  simp only [exec, execRdres]
  split <;> rfl

/-- Settles O23: the numbers written out are those of the status codes. -/
theorem rdresAnswersTheRecordedOutcome : Obligations.RdresAnswersTheRecordedOutcome := fun a b c s =>
  ⟨exec_rdres s, issue_noOperand (op := 0x31#8) rfl a b c s⟩

/-- A byte as data: 16 zero bits and the byte. -/
theorem zext24_eq_append (b : Byte) : zext24 b = 0x0000#16 ++ b :=
  BitVec.setWidth_eq_append (by omega)

/-- R143: MSGRD within the message. -/
theorem exec_msgrd_byte {i : Byte} {s : State} (h : i.toNat < s.msg.length) :
    exec (.msgrd i) s = answers s 0x00#8 (0x0000#16 ++ s.msg[i.toNat]) := by
  simp only [exec, execMsgrd, List.getElem?_eq_getElem h, next_respond, Status.code, zext24_eq_append]

/-- R143: MSGRD past the message's end. -/
theorem exec_msgrd_past {i : Byte} {s : State} (h : s.msg.length ≤ i.toNat) :
    exec (.msgrd i) s = answers s 0x30#8 0#24 := by
  simp only [exec, execMsgrd, List.getElem?_eq_none h]
  rfl

/-- Settles O24. -/
theorem msgrdReadsTheIndexedByteOrFcm : Obligations.MsgrdReadsTheIndexedByteOrFcm := by
  intro a b c s
  refine ⟨?_, issue_operandA (op := 0x32#8) rfl a b c s⟩
  split
  · next h => exact exec_msgrd_byte h
  · next h => exact exec_msgrd_past (Nat.le_of_not_lt h)

/-- R28: a message that is held has the length that its first byte gives. -/
theorem State.Inv.msg_length {s : State} (h : s.Inv) (hm : s.msg ≠ []) :
    s.msg.length = (s.msg.headD 0).toNat + 1 :=
  (h.message.1 (by_contra fun hnone => hm (h.message.2 hnone))).1

/-- Settles O25. -/
theorem msglenAnswersTheMessageLength : Obligations.MsglenAnswersTheMessageLength := by
  intro a b c s
  refine ⟨rfl, issue_noOperand (op := 0x33#8) rfl a b c s, fun hinv hm => ?_⟩
  have hlen := hinv.msg_length hm
  have hbyte : (s.msg.headD 0).toNat < 256 := (s.msg.headD 0).isLt
  omega

/-! ## The receive engine's step (R133 to R137) -/

/-- R133: a non-blocking read that finds no byte where the delimiter is awaited has no message. -/
theorem exec_rxe_nothing {s : State} (hst : s.rdSt = .waitDelim) (hmode : s.rdMode = .nonblock) (hx : s.rxf = []) :
    exec .rxeStep s = .next (s.complete .noMessage 0#24).silent := by
  rw [exec_rxe_wait hst ((rxeEnabled_iff s).mpr ⟨by simp [hst], .inr ⟨hst, hmode⟩⟩)]
  simp only [rxeWaitDelim, State.silent_rxf, hx]
  rfl

/-- Settles O27: no byte, the delimiter, or any other byte. -/
theorem rxeInWaitDelimTakesOnlyTheDelimiter : Obligations.RxeInWaitDelimTakesOnlyTheDelimiter := fun _ hst =>
  ⟨fun hx hmode => exec_rxe_nothing hst hmode hx, fun _ hx => exec_rxe_delimiter hst hx,
    fun _ _ hne hx => exec_rxe_unexpected hst hx hne⟩

/-- Settles O28: the first byte of an escape, and a bad second byte. -/
theorem rxeInFrameOpensEscapesAndRejectsBadOnes : Obligations.RxeInFrameOpensEscapesAndRejectsBadOnes := by
  intro s b rest hst hx
  refine ⟨fun hesc hb => ?_, fun hesc h5E h5D => exec_rxe_badEscape hst hesc hx h5E h5D⟩
  subst hb
  exact exec_rxe_escape hst hesc hx

/-- Settles O29: the engine accepts the decoded byte as the length byte, in the body, or as the last byte. -/
theorem rxeInFrameAcceptsTheDecodedByte : Obligations.RxeInFrameAcceptsTheDecodedByte := by
  intro s b d rest hx hd
  refine ⟨fun hst => ?_, fun hst hrem => ?_, fun body lo hst hrem hfb => ?_⟩
  · rw [exec_rxe_deliver (.inl hst) hx hd]
    exact accept_len hst
  · rw [exec_rxe_deliver (.inr hst) hx hd]
    exact accept_mid hst hrem
  · rw [exec_rxe_deliver (.inr hst) hx hd]
    exact accept_last hst hrem hfb

/-! ## The line's events (R140, R141) -/

/-- R140: a byte for which RXF has room. -/
theorem receive_room {s : State} (b : Byte) (h : s.rxf.length < s.cfg.rxDepth) :
    s.receive b = { s with rxf := s.rxf ++ [b] } := if_pos h

/-- R140: a byte that RXF has no room for. -/
theorem receive_full {s : State} (b : Byte) (h : s.cfg.rxDepth ≤ s.rxf.length) :
    s.receive b = { s with ovr := true } := if_neg (Nat.not_lt.mpr h)

/-- R140: LINE_RX is the byte's reception, with no response. -/
theorem exec_lineRx (b : Byte) (s : State) : exec (.lineRx b) s = .next (s.receive b).silent := rfl

/-- Settles O33. -/
theorem lineRxPushesOrSetsOverrun : Obligations.LineRxPushesOrSetsOverrun := fun b s =>
  ⟨fun room => by rw [exec_lineRx, receive_room b room]; rfl, fun full => by rw [exec_lineRx, receive_full b full]; rfl⟩

/-- R141: a timeout in a blocking read that still awaits the delimiter. -/
theorem exec_timeout_wait {s : State} (hx : s.rxf = []) (hst : s.rdSt = .waitDelim) (hmode : s.rdMode = .block) :
    exec .timeout s = .next (s.complete .noMessage 0#24).silent := by
  have he : s.timeoutEnabled = true := (timeoutEnabled_iff s).mpr ⟨hx, .inr (.inr ⟨hst, hmode⟩)⟩
  simp only [exec, execTimeout, if_pos he, if_pos hst]

/-- R141: a timeout inside a frame. -/
theorem exec_timeout_frame {s : State} (hx : s.rxf = []) (hst : s.rdSt = .readLen ∨ s.rdSt = .readBody) :
    exec .timeout s = .next (s.frameError .feTruncated (truncatedInfo s)).silent := by
  have he : s.timeoutEnabled = true := (timeoutEnabled_iff s).mpr ⟨hx, hst.imp_right .inl⟩
  have hne : s.rdSt ≠ .waitDelim := by rcases hst with h | h <;> simp [h]
  simp only [exec, execTimeout, if_pos he, if_neg hne]

/-- Settles O34. -/
theorem timeoutEndsTheWaitingRead : Obligations.TimeoutEndsTheWaitingRead := fun _ =>
  ⟨exec_timeout_wait, exec_timeout_frame⟩

end Sys2Proof.Machine

/-! SUPPORT. The frame writer (spec/43_frame_writer.md): how long a frame is on the wire, and the writer's commands with the
reserved fields of their words (R170 to R172). -/

namespace Sys2Proof.Machine

/-! ## The length of a frame on the wire (R75, R104) -/

/-- R104: escaped text is at least as long as the text and at most twice as long. -/
theorem length_escape_bounds (s : List Byte) :
    s.length ≤ (escape s).length ∧ (escape s).length ≤ 2 * s.length := by
  rw [length_escape, Nat.two_mul]
  exact ⟨Nat.le_add_right .., Nat.add_le_add_left (List.length_filter_le ..) _⟩

/-- R75: the delimiter stands alone, every byte of the body and the two checksum bytes take one or two wire bytes. -/
theorem length_frame_bounds (body : List Byte) :
    body.length + 3 ≤ (frame body).length ∧ (frame body).length ≤ 2 * body.length + 5 := by
  have hescape := length_escape_bounds (body ++ checksumBytes body)
  have hlen : (body ++ checksumBytes body).length = body.length + 2 := List.length_append
  rw [frame, List.length_cons]
  omega

/-! ## Building and sending a frame (R170 to R172) -/

/-- R171: TXBPUSH refuses a full buffer and otherwise appends its byte. -/
theorem exec_txbpush (b : Byte) (s : State) :
    exec (.txbpush b) s =
      if s.txb.length = 256 then answers s 0x50#8 256#24
      else answers { s with txb := s.txb ++ [b] } 0x00#8 (BitVec.ofNat 24 (s.txb.length + 1)) := by
  simp only [exec, execTxbpush]
  split <;> rfl

/-- Settles O39, from the two commands and the reserved fields of their words. -/
theorem txbclrAndTxbpushBuildTheBuffer : Obligations.TxbclrAndTxbpushBuildTheBuffer := fun a b c s =>
  ⟨rfl, exec_txbpush a s, issue_noOperand (op := 0x40#8) rfl a b c s, issue_operandA (op := 0x41#8) rfl a b c s⟩

/-- R172: TXSEND where TXB is empty. -/
theorem exec_txsend_empty {s : State} (h : s.txb = []) : exec .txsend s = answers s 0x50#8 0#24 := by
  simp only [exec, execTxsend, if_pos h]
  rfl

/-- Settles O40: the wire bytes are the frame of TXB, whose length is bounded by that of TXB. -/
theorem txsendAppendsTheFrame : Obligations.TxsendAppendsTheFrame := by
  intro a b c s
  refine ⟨exec_txsend_empty, fun held => ?_, issue_noOperand (op := 0x42#8) rfl a b c s⟩
  have hpos : 0 < s.txb.length := List.length_pos_iff.mpr held
  obtain ⟨hmin, hmax⟩ := length_frame_bounds s.txb
  refine ⟨exec_txsend_held held, ?_, fun hfull => ?_⟩
  · exact Nat.le_trans (by omega) hmin
  · exact Nat.le_trans hmax (by omega)

end Sys2Proof.Machine

/-! SUPPORT. The bitfield decoder (spec/44_bitfield.md): the commands over the bitmap and the field output (R187 to R191,
R195), and those that take apart a type byte, a fingerprint and a PIN (R192 to R194). -/

namespace Sys2Proof.Machine

/-! ## The bitmap (R187, R188) -/

/-- R187: BMLOAD loads the range where the message holds it, and empties BM where it does not. -/
theorem exec_bmload (start count : Byte) (s : State) :
    exec (.bmload start count) s =
      if start.toNat + count.toNat ≤ s.msg.length then
        answers { s with foValid := false, bm := s.msg.extract start.toNat (start.toNat + count.toNat) } 0x00#8
          (0x0000#16 ++ count)
      else answers { s with foValid := false, bm := [] } 0x30#8 0#24 := by
  simp only [exec, execBmload, toBitMap_eq, ← zext24_eq_append]
  by_cases h : start.toNat + count.toNat ≤ s.msg.length
  · simp only [if_pos h]; rfl
  · simp only [if_neg h]; rfl

/-- Settles O43. -/
theorem bmloadLoadsTheRangeOrFails : Obligations.BmloadLoadsTheRangeOrFails := fun start count c s =>
  ⟨exec_bmload start count s, issue_operandsAB (op := 0x50#8) rfl start count c s⟩

/-- R188: BMRD within the bitmap. -/
theorem exec_bmrd_entry {j : Byte} {s : State} (h : j.toNat < s.bm.length) :
    exec (.bmrd j) s = answers s 0x00#8 (0x0000#16 ++ s.bm[j.toNat]) := by
  simp only [exec, execBmrd, List.getElem?_eq_getElem h, next_respond, Status.code, zext24_eq_append]

/-- R188: BMRD past the bitmap's end. -/
theorem exec_bmrd_past {j : Byte} {s : State} (h : s.bm.length ≤ j.toNat) :
    exec (.bmrd j) s = answers s 0x30#8 0#24 := by
  simp only [exec, execBmrd, List.getElem?_eq_none h]
  rfl

/-- Settles O44. -/
theorem bmrdReadsTheBitmapEntryOrFcm : Obligations.BmrdReadsTheBitmapEntryOrFcm := by
  intro a b c s
  refine ⟨?_, issue_operandA (op := 0x51#8) rfl a b c s⟩
  split
  · next h => exact exec_bmrd_entry h
  · next h => exact exec_bmrd_past (Nat.le_of_not_lt h)

/-! ## The field output (R189, R191, R195) -/

/-- R189, R238: FLDAPPLY with a table number out of range. -/
theorem exec_fldapply_noTable {t : Byte} {s : State} (ht : s.cfg.ft.length ≤ t.toNat) (j : Byte) :
    exec (.fldapply t j) s = answers s 0x41#8 0#24 := by
  simp only [exec, execFldapply, List.getElem?_eq_none ht]
  rfl

/-- R189: FLDAPPLY with a bitmap index out of range. -/
theorem exec_fldapply_noEntry {t j : Byte} {s : State} (ht : t.toNat < s.cfg.ft.length) (hj : s.bm.length ≤ j.toNat) :
    exec (.fldapply t j) s = answers { s with foValid := false } 0x30#8 0#24 := by
  simp only [exec, execFldapply, List.getElem?_eq_getElem ht, List.getElem?_eq_none hj]
  rfl

/-- R189: FLDAPPLY with both in range. -/
theorem exec_fldapply_applies {t j : Byte} {s : State} (ht : t.toNat < s.cfg.ft.length) (hj : j.toNat < s.bm.length) :
    exec (.fldapply t j) s =
      answers { s with fo := applyFieldTable s.cfg.ft[t.toNat] s.bm[j.toNat], foValid := true } 0x00#8
        (0x00#8 ++ t ++ s.bm[j.toNat]) := by
  simp only [exec, execFldapply, List.getElem?_eq_getElem ht, List.getElem?_eq_getElem hj]
  rfl

/-- Settles O45: the three outcomes in the order of their tests, and the slots of an applied table. -/
theorem fldapplyZipsTheTableWithTheBits : Obligations.FldapplyZipsTheTableWithTheBits := fun t j c s =>
  ⟨fun ht => exec_fldapply_noTable ht j, exec_fldapply_noEntry,
    fun ht hj => ⟨_, exec_fldapply_applies ht hj, applyFieldTable_get _ _⟩,
    issue_operandsAB (op := 0x52#8) rfl t j c s⟩

/-- R191: FORD answers the bit and the id of its entry while the field output is valid. -/
theorem exec_ford (i : BitVec 3) (s : State) :
    exec (.ford i) s =
      if s.foValid = true then
        answers s 0x00#8 (0#7 ++ BitVec.ofBool (s.fo[i.toNat]'i.isLt).bit ++ (s.fo[i.toNat]'i.isLt).fid)
      else answers s 0x30#8 0#24 := by
  simp only [exec, execFord]
  split <;> rfl

/-- R71, R191: the operand byte of FORD has no reserved bit set exactly when it is below 8. -/
theorem reservedA_index_iff (a : Byte) : a &&& 0xF8#8 = 0#8 ↔ a.toNat < 8 := by
  revert a
  decide

/-- R191: the index that a byte's low three bits spell. -/
theorem extractLsb'_index (a : Byte) : a.extractLsb' 0 3 = BitVec.ofNat 3 a.toNat := rfl

/-- R71, R191, R226: the host's word of FORD: the index stands in A[2:0], and every other bit of A, B and C is reserved. -/
theorem issue_ford (a b c : Byte) (s : State) :
    issue (0x53#8 ++ a ++ b ++ c) s =
      if a.toNat < 8 ∧ b = 0#8 ∧ c = 0#8 then exec (.ford (BitVec.ofNat 3 a.toNat)) s else answers s 0x41#8 0#24 := by
  simpa only [packWord, reservedA_index_iff, byte_and_ones, extractLsb'_index] using
    issue_packWord (op := 0x53#8) 0xF8#8 0xFF#8 0xFF#8 rfl rfl a b c s

/-- Settles O46. -/
theorem fordReadsTheFieldOutputEntry : Obligations.FordReadsTheFieldOutputEntry := fun i a b c s =>
  ⟨exec_ford i s, issue_ford a b c s⟩

/-- R195: the ids of a table of the ROM are pairwise distinct, as the parameters are well formed. -/
theorem nodup_of_mem_ft {c : Config} {names : FieldTable} (h : names ∈ c.ft) : names.toList.Nodup := by
  have hwf := c.ok
  simp only [RawConfig.wf, Bool.and_eq_true, List.all_eq_true] at hwf
  obtain ⟨⟨⟨-, hdistinct⟩, -⟩, -⟩ := hwf
  exact of_decide_eq_true (hdistinct names h)

/-- Settles O50: a valid field output is a table of the ROM with bits (R189), and the ids of a table are distinct. -/
theorem fieldOutputNamesAreDistinct : Obligations.FieldOutputNamesAreDistinct := by
  intro s hinv hvalid i j hij
  obtain ⟨names, hnames, b, -, hfo⟩ := hinv.fields hvalid
  have hids : names[i] = names[j] := by simpa only [hfo, applyFieldTable_get] using hij
  have hlist : names.toList[i.val]'(by simp) = names.toList[j.val]'(by simp) := by simpa using hids
  exact Fin.ext ((nodup_of_mem_ft hnames).getElem_inj_iff.mp hlist)

/-! ## The type byte (R192) -/

/-- Appending two bit vectors, as arithmetic. -/
theorem toNat_append_eq_add {v w : Nat} (x : BitVec v) (y : BitVec w) : (x ++ y).toNat = x.toNat * 2 ^ w + y.toNat := by
  rw [BitVec.toNat_append, ← Nat.shiftLeft_add_eq_or_of_lt y.isLt, Nat.shiftLeft_eq]

/-- One bit of a bit vector, as arithmetic. -/
theorem toNat_ofBool_getLsbD {w : Nat} (x : BitVec w) (i : Nat) :
    (BitVec.ofBool (x.getLsbD i)).toNat = x.toNat / 2 ^ i % 2 := by
  rw [BitVec.toNat_ofBool, ← BitVec.testBit_toNat, Nat.toNat_testBit]

/-- R78, R192: the three fields of a type byte as a number. -/
theorem typeSplitData_toNat (t : Byte) :
    (typeSplitData t).toNat = (t.toNat % 64) * 256 + (t.toNat / 64 % 2) * 2 + t.toNat / 128 := by
  have hbyte : t.toNat < 256 := t.isLt
  simp only [typeSplitData, canonicalType, selBit, ackBit, toNat_append_eq_add, BitVec.extractLsb'_toNat,
    toNat_ofBool_getLsbD, BitVec.toNat_ofNat, Nat.shiftRight_zero]
  omega

/-- R192: TYPESPLIT on a message without a type byte. -/
theorem exec_typesplit_short {s : State} (h : s.msg.length < 2) : exec .typesplit s = answers s 0x30#8 0#24 := by
  simp only [exec, execTypesplit]
  split
  · next hmsg => simp [hmsg] at h
  · rfl

/-- R192: TYPESPLIT on a message with a type byte. -/
theorem exec_typesplit_type {s : State} (h : 2 ≤ s.msg.length) :
    exec .typesplit s = answers s 0x00#8 (typeSplitData s.msg[1]) := by
  obtain ⟨b, t, rest, hmsg⟩ : ∃ b t rest, s.msg = b :: t :: rest := by
    match s.msg, h with
    | b :: t :: rest, _ => exact ⟨b, t, rest, rfl⟩
  simp only [exec, execTypesplit, hmsg]
  rfl

/-- Settles O47. -/
theorem typesplitExtractsTheThreeFields : Obligations.TypesplitExtractsTheThreeFields := fun a b c s =>
  ⟨exec_typesplit_short, fun h => ⟨_, exec_typesplit_type h, typeSplitData_toNat _⟩,
    issue_noOperand (op := 0x54#8) rfl a b c s⟩

/-! ## The fingerprint lookup (R193) -/

/-- R193: the matches are of the one group `g` exactly when `g` alone is left of their groups without repetitions. -/
theorem fpKind_matched_iff_dedup {m : List FpEntry} {g : GroupId} :
    fpKind m = .matched g ↔ (m.map FpEntry.group).dedup = [g] := by
  rw [fpKind_matched]
  constructor
  · rintro ⟨hne, hall⟩
    have hgroups : m.map FpEntry.group = List.replicate m.length g := List.eq_replicate_iff.mpr (by simpa using hall)
    rw [hgroups, List.replicate_dedup (by simpa using hne)]
  · intro h
    refine ⟨?_, fun e he => ?_⟩
    · rintro rfl
      cases h
    · have hmem : e.group ∈ (m.map FpEntry.group).dedup := List.mem_dedup.mpr (List.mem_map_of_mem he)
      simpa [h] using hmem

/-- R193: the matches are ambiguous where they are of two or more groups. -/
theorem fpKind_ambiguous_of_dedup {m : List FpEntry} (h : 2 ≤ (m.map FpEntry.group).dedup.length) :
    fpKind m = .ambiguous := by
  match hk : fpKind m with
  | .noMatch => simp [fpKind_noMatch.mp hk] at h
  | .matched g => simp [fpKind_matched_iff_dedup.mp hk] at h
  | .ambiguous => rfl

/-- R193: what FPLOOKUP answers for each kind of match. -/
theorem exec_fplookup {a b c : Byte} {s : State} {k : FpKind}
    (hk : fpKind (fpMatches s.cfg.fpCatalog (fingerprint a b c)) = k) :
    exec (.fplookup a b c) s =
      match k with
      | .noMatch => answers s 0x00#8 0x00FFFF#24
      | .matched g => answers s 0x00#8 (0b01#2 ++ fpCount (fpMatches s.cfg.fpCatalog (fingerprint a b c)) ++ g)
      | .ambiguous =>
        answers s 0x32#8 (0b10#2 ++ fpCount (fpMatches s.cfg.fpCatalog (fingerprint a b c)) ++ 0xFFFF#16) := by
  simp only [exec, execFplookup, hk]
  cases k <;> rfl

/-- Settles O48: the kind of match is told by the distinct groups of the matching entries, and no bit of the word is
reserved. -/
theorem fplookupClassifiesByDistinctGroups : Obligations.FplookupClassifiesByDistinctGroups := by
  intro a b c s m g n
  refine ⟨fun h => ?_, fun x h => ?_, fun h => ?_, ?_⟩
  · exact exec_fplookup (fpKind_noMatch.mpr (List.eq_nil_of_length_eq_zero h))
  · exact exec_fplookup (fpKind_matched_iff_dedup.mpr h)
  · exact exec_fplookup (fpKind_ambiguous_of_dedup h)
  · simpa [packWord] using issue_packWord (op := 0x55#8) 0x00#8 0x00#8 0x00#8 rfl rfl a b c s

/-! ## The PIN digits (R194) -/

/-- R194: each PIN byte gives its two digits, the low nibble before the high one. -/
theorem pinDigits_getElem? {bytes : List Byte} {j : Nat} (h : j < bytes.length) :
    (pinDigits bytes)[2 * j]? = some (bytes[j].extractLsb' 0 4) ∧
      (pinDigits bytes)[2 * j + 1]? = some (bytes[j].extractLsb' 4 4) := by
  induction bytes generalizing j with
  | nil => cases h
  | cons b bytes ih =>
    have hcons : pinDigits (b :: bytes) = b.extractLsb' 0 4 :: b.extractLsb' 4 4 :: pinDigits bytes := rfl
    cases j with
    | zero => exact ⟨rfl, rfl⟩
    | succ j => simpa [hcons, Nat.mul_succ] using ih (Nat.lt_of_succ_lt_succ h)

/-- R194: there are two digits for each PIN byte. -/
theorem length_pinDigits (bytes : List Byte) : (pinDigits bytes).length = 2 * bytes.length := by
  simp [pinDigits, Nat.mul_comm]

/-- R194: the six digits of the data as a number, the first in the highest place. -/
theorem pinData_toNat (d : List (BitVec 4)) :
    (pinData d).toNat =
      (((((d.getD 0 0).toNat * 16 + (d.getD 1 0).toNat) * 16 + (d.getD 2 0).toNat) * 16 + (d.getD 3 0).toNat) * 16 +
        (d.getD 4 0).toNat) * 16 + (d.getD 5 0).toNat := by
  simp only [pinData, toNat_append_eq_add, Nat.reducePow]

/-- R194: digit `k` stands in the data at bits `23 - 4 k` to `20 - 4 k`, and a digit that is not there is 0. -/
theorem pinData_digit (d : List (BitVec 4)) {k : Nat} (h : k < 6) :
    (pinData d).extractLsb' (20 - 4 * k) 4 = d.getD k 0 := by
  have nibble (i : Nat) : (d.getD i 0).toNat < 16 := (d.getD i 0).isLt
  have h0 := nibble 0
  have h1 := nibble 1
  have h2 := nibble 2
  have h3 := nibble 3
  have h4 := nibble 4
  have h5 := nibble 5
  refine BitVec.eq_of_toNat_eq ?_
  rw [BitVec.extractLsb'_toNat, pinData_toNat, Nat.shiftRight_eq_div_pow]
  interval_cases k <;> omega

/-- R194: data of four digits ends in eight zero bits. -/
theorem pinData_fourDigits {d : List (BitVec 4)} (h : d.length = 4) : (pinData d).extractLsb' 0 8 = 0#8 := by
  have h4 : d.getD 4 0 = 0 := List.getD_eq_default _ _ h.le
  have h5 : d.getD 5 0 = 0 := List.getD_eq_default _ _ (by omega)
  refine BitVec.eq_of_toNat_eq ?_
  rw [BitVec.extractLsb'_toNat, pinData_toNat, h4, h5, Nat.shiftRight_zero]
  simp only [BitVec.ofNat_eq_ofNat, BitVec.toNat_ofNat]
  omega

/-- R194: the PIN bytes of a code of `n` digits from byte `start` of the message on. -/
def pinBytes (start n : Byte) (s : State) : List Byte := (s.msg.drop start.toNat).take (n.toNat / 2)

/-- R194, R238: PINDEC tests the code length, then the message, and then answers the digits of the PIN bytes. -/
theorem exec_pindec (start n : Byte) (s : State) :
    exec (.pindec start n) s =
      if n ≠ 4#8 ∧ n ≠ 6#8 then answers s 0x31#8 (0x0000#16 ++ n)
      else if s.msg.length < start.toNat + n.toNat / 2 then answers s 0x30#8 0#24
      else answers s 0x00#8 (pinData (pinDigits (pinBytes start n s))) := by
  have hshort : ((n.toNat / 2 : Nat) : Int) > (s.msg.length : Int) - start.toNat ↔
      s.msg.length < start.toNat + n.toNat / 2 := by omega
  simp only [exec, execPindec, hshort, ← zext24_eq_append]
  split
  · rfl
  · split <;> rfl

/-- R194: a message that is long enough holds all PIN bytes. -/
theorem length_pinBytes {start n : Byte} {s : State} (h : start.toNat + n.toNat / 2 ≤ s.msg.length) :
    (pinBytes start n s).length = n.toNat / 2 := by
  rw [pinBytes, List.length_take_of_le]
  rw [List.length_drop]
  omega

/-- R194: PIN byte `j` is the message's byte `start + j`, and its two nibbles stand in the data low nibble first. -/
theorem pinData_nibbles {start n : Byte} {s : State} {j : Nat} (h : j < (pinBytes start n s).length) (hj : j < 3)
    (hmsg : start.toNat + j < s.msg.length) :
    (pinData (pinDigits (pinBytes start n s))).extractLsb' (20 - 8 * j) 4 = (s.msg[start.toNat + j]).extractLsb' 0 4 ∧
    (pinData (pinDigits (pinBytes start n s))).extractLsb' (16 - 8 * j) 4 = (s.msg[start.toNat + j]).extractLsb' 4 4 := by
  obtain ⟨hlow, hhigh⟩ := pinDigits_getElem? h
  have hbyte : (pinBytes start n s)[j] = s.msg[start.toNat + j] := by simp [pinBytes]
  have low := pinData_digit (pinDigits (pinBytes start n s)) (k := 2 * j) (by omega)
  have high := pinData_digit (pinDigits (pinBytes start n s)) (k := 2 * j + 1) (by omega)
  rw [List.getD_eq_getElem?_getD, hlow, Option.getD_some, hbyte] at low
  rw [List.getD_eq_getElem?_getD, hhigh, Option.getD_some, hbyte] at high
  rw [show 20 - 8 * j = 20 - 4 * (2 * j) by omega, show 16 - 8 * j = 20 - 4 * (2 * j + 1) by omega]
  exact ⟨low, high⟩

/-- Settles O49: the answer follows the order of the tests, and a code of 4 or 6 digits takes 2 or 3 bytes. -/
theorem pindecUnswapsTheNibbles : Obligations.PindecUnswapsTheNibbles := by
  intro start n c s
  refine ⟨fun h4 h6 => ?_, fun hn hshort => ?_, fun hn hlong => ?_, issue_operandsAB (op := 0x56#8) rfl start n c s⟩
  · rw [exec_pindec, if_pos ⟨h4, h6⟩]
  · rw [exec_pindec, if_neg (by tauto), if_pos hshort]
  · have hlen := length_pinBytes hlong
    have hthree : n.toNat / 2 ≤ 3 := by rcases hn with rfl | rfl <;> decide
    refine ⟨_, by rw [exec_pindec, if_neg (by tauto), if_neg (Nat.not_lt.mpr hlong)], fun j hj hmsg => ?_, fun h4 => ?_⟩
    · exact pinData_nibbles (hlen.symm ▸ hj) (Nat.lt_of_lt_of_le hj hthree) hmsg
    · refine pinData_fourDigits ?_
      rw [length_pinDigits, hlen, h4]
      rfl

end Sys2Proof.Machine

/-! SUPPORT. The system commands (spec/45_system.md R220 to R224): the STATUS view as a number with its fields (R40), and
the five commands with the reserved fields of their words. -/

namespace Sys2Proof.Machine

/-! ## The fields of a bit vector, as arithmetic -/

/-- A bit of a bit vector, read off its number. -/
theorem getLsbD_of_toNat {w i : Nat} {x : BitVec w} {b : Bool} (h : x.toNat / 2 ^ i % 2 = b.toNat) : x.getLsbD i = b :=
  BitVec.ofBool_eq_iff_eq.mp (BitVec.eq_of_toNat_eq (by rw [toNat_ofBool_getLsbD, h, BitVec.toNat_ofBool]))

/-- A field of a bit vector, read off its number. -/
theorem extractLsb'_of_toNat {w v i : Nat} {x : BitVec w} {y : BitVec v} (h : x.toNat / 2 ^ i % 2 ^ v = y.toNat) :
    x.extractLsb' i v = y :=
  BitVec.eq_of_toNat_eq (by rw [BitVec.extractLsb'_toNat, Nat.shiftRight_eq_div_pow, h])

/-! ## The STATUS view (R40) -/

/-- R23: the bit of the mode is set for BLOCK. -/
theorem modeBit_toNat (m : RdMode) : (modeBit m).toNat = (decide (m = .block)).toNat := by
  cases m <;> rfl

/-- R40: the count saturates before it is cut to a byte. -/
theorem rxCount_toNat (s : State) : s.rxCount.toNat = min s.rxf.length 255 :=
  Nat.mod_eq_of_lt (Nat.lt_succ_of_le (Nat.min_le_right _ _))

/-- R40: the view as a number, each field times the weight of its lowest bit. -/
theorem statusView_toNat (s : State) :
    s.statusView.toNat =
      s.rdRes.code.code.toNat * 65536 + s.rxCount.toNat * 256 + s.foValid.toNat * 64 + s.ovr.toNat * 32 +
        s.rdEsc.toNat * 16 + (decide (s.rdMode = .block)).toNat * 8 + s.rdSt.bits.toNat * 2 + s.busy.toNat := by
  simp only [State.statusView, toNat_append_eq_add, BitVec.toNat_ofBool, modeBit_toNat, BitVec.toNat_ofNat]
  omega

/-- R40: every field of the view stands where the table puts it. -/
theorem statusView_fields (s : State) :
    s.statusView.getLsbD 0 = s.busy ∧ s.statusView.extractLsb' 1 2 = s.rdSt.bits ∧
      s.statusView.getLsbD 3 = decide (s.rdMode = .block) ∧ s.statusView.getLsbD 4 = s.rdEsc ∧
      s.statusView.getLsbD 5 = s.ovr ∧ s.statusView.getLsbD 6 = s.foValid ∧ s.statusView.getLsbD 7 = false ∧
      s.statusView.extractLsb' 8 8 = s.rxCount ∧ s.statusView.extractLsb' 16 8 = s.rdRes.code.code := by
  have view := statusView_toNat s
  have zero := Bool.toNat_false
  have busy := s.busy.toNat_lt
  have rdst := s.rdSt.bits.isLt
  have mode := (decide (s.rdMode = .block)).toNat_lt
  have esc := s.rdEsc.toNat_lt
  have ovr := s.ovr.toNat_lt
  have fov := s.foValid.toNat_lt
  have rxcnt := s.rxCount.isLt
  have res := s.rdRes.code.code.isLt
  refine ⟨getLsbD_of_toNat ?_, extractLsb'_of_toNat ?_, getLsbD_of_toNat ?_, getLsbD_of_toNat ?_, getLsbD_of_toNat ?_,
    getLsbD_of_toNat ?_, getLsbD_of_toNat ?_, extractLsb'_of_toNat ?_, extractLsb'_of_toNat ?_⟩
  all_goals omega

/-- R22: the two bits of each reader state. -/
theorem rdSt_bits_eq (r : RdSt) :
    r.bits = (match r with | .idle => 0 | .waitDelim => 1 | .readLen => 2 | .readBody => 3) := by
  cases r <;> rfl

/-! ## The commands (R220 to R224) -/

/-- Settles O9: STATUS answers the view, whose fields are read off its number. -/
theorem statusAnswersTheViewFieldByField : Obligations.StatusAnswersTheViewFieldByField := by
  intro a b c s
  refine ⟨⟨s.statusView, rfl, ?_⟩, issue_noOperand (op := 0x03#8) rfl a b c s⟩
  obtain ⟨hbusy, hrdst, hmode, hesc, hovr, hfov, hzero, hcount, hres⟩ := statusView_fields s
  refine ⟨?_, hrdst.trans (rdSt_bits_eq s.rdSt), ?_, hesc, hovr, hfov, hzero, ?_, hres⟩
  · rw [hbusy, State.busy, decide_eq_true_iff]
  · rw [hmode, decide_eq_true_iff]
  · rw [hcount, rxCount_toNat]

/-- Settles O6: what the three commands do, by definition, and the reserved fields of their words. -/
theorem nopFlushAndClrovrDoTheirOneThing : Obligations.NopFlushAndClrovrDoTheirOneThing := fun a b c s =>
  ⟨⟨rfl, rfl, rfl⟩, issue_noOperand (op := 0x00#8) rfl a b c s, issue_noOperand (op := 0x02#8) rfl a b c s,
    issue_noOperand (op := 0x04#8) rfl a b c s⟩

/-- R221: RESET leaves the power-on value of every element but TXQ, the parameters and the agenda. -/
theorem exec_reset (s : State) :
    exec .reset s = answers { State.reset with txq := s.txq, cfg := s.cfg, agenda := s.agenda } 0x00#8 0#24 := rfl

/-- Settles O7: RESET's answer with the values of the reset table R260 written out. -/
theorem resetRestoresEveryElementButTxq : Obligations.ResetRestoresEveryElementButTxq := fun a b c s =>
  ⟨exec_reset s, issue_noOperand (op := 0x01#8) rfl a b c s⟩

end Sys2Proof.Machine

/-! # The invariant at power-on (spec/70_reset_and_hazards.md R260) -/

namespace Sys2Proof.Machine

/-- Settles O51: `inv_reset` holds for every transmit stream, block and agenda, so for those the machine has right
after power-on. -/
theorem invariantHoldsAtReset : Obligations.InvariantHoldsAtReset :=
  inv_reset State.reset.txq State.reset.cfg State.reset.agenda

end Sys2Proof.Machine
